-- ==== Sys2Proof/Word.lean ====
section
/-! DEFINITION. The widths of the block: 32-bit register words and halves, 64-bit data words (00_scope.md R5). -/

namespace Sys2Proof

/-- A 32-bit register of the window, or one half of a data word (R5). -/
abbrev Word := BitVec 32

/-- A 64-bit data word: key, input block or result (R5). -/
abbrev Block := BitVec 64

end Sys2Proof
end

