-- ==== Sys2Proof/Syntax.lean ====
section
/-! DEFINITION. What a host presents to the block: the registers of the window, bus transactions, command words, the
instructions of spec/opcode_table.json, and the host notation of 30_encoding.md R88 and R89. -/

namespace Sys2Proof

/-- The eight registers of the window (20_memory.md R52). -/
inductive Reg where
  | keyLo
  | keyHi
  | dinLo
  | dinHi
  | doutLo
  | doutHi
  | ctrl
  | status
deriving DecidableEq, Repr

/-- A bus transaction `(DIR, SZ, OFF, WDATA)`: the values of the ports `wr`, `size`, `addr` and `wdata`
(30_encoding.md R80, R81). A read ignores `wdata`. -/
structure Transaction where
  wr : Bool
  size : BitVec 2
  off : BitVec 5
  wdata : Word
deriving DecidableEq, Repr

/-- One request of the host in one of the two formats of spec/opcode_table.json. -/
inductive Request where
  /-- Format BUS: a transaction as the ports carry it (R81). -/
  | bus (t : Transaction)
  /-- Format CMD: a command word (R83). It reaches the block as the data of a 4-byte write to `CTRL`, and acts as that
  write does. DESIGN CHOICE, safe: a second way to write one bus transaction (log 4). -/
  | command (word : Word)
deriving DecidableEq, Repr

/-- The legal command words (R84). -/
inductive Command where
  | nop
  | perm
  | enc
deriving DecidableEq, Repr

/-- The instructions: one constructor per row of spec/opcode_table.json. -/
inductive Instr where
  | rdKeyLo
  | rdKeyHi
  | rdDinLo
  | rdDinHi
  | rdDoutLo
  | rdDoutHi
  | rdCtrl
  | rdStatus
  | wrKeyLo (wdata : Word)
  | wrKeyHi (wdata : Word)
  | wrDinLo (wdata : Word)
  | wrDinHi (wdata : Word)
  | wrDoutLo (wdata : Word)
  | wrDoutHi (wdata : Word)
  | wrCtrl (wdata : Word)
  | wrStatus (wdata : Word)
  | nop
  | perm
  | enc
deriving DecidableEq, Repr

/-- Why a request is no instruction (R82, R85, R90). -/
inductive Reject where
  /-- A 1-byte or 2-byte transaction, `SZ = 00` or `01`: a bus error. -/
  | subWord
  /-- `SZ = 11`: a bus error. -/
  | reservedSize
  /-- A 4-byte transaction with `OFF[1:0]` not `00`: a bus error. -/
  | misaligned
  /-- A command word other than 0, 1 and 2: `ERR_CMD` when idle. -/
  | illegalCommand
deriving DecidableEq, Repr

/-- What a decoder answers. -/
inductive Decoded where
  | instr (i : Instr)
  | rejected (why : Reject)
deriving DecidableEq, Repr

/-- A line of a host program that issues one transaction (R88). -/
inductive HostLine where
  /-- `wr REG, imm32` -/
  | wr (r : Reg) (imm : Word)
  /-- `rd REG -> v` -/
  | rd (r : Reg)
  /-- `wrx off, n, imm32`: a raw write of `n` bytes. -/
  | wrx (off n : Nat) (imm : Word)
  /-- `rdx off, n -> v`: a raw read of `n` bytes. -/
  | rdx (off n : Nat)
deriving DecidableEq, Repr

/-- The pseudo-instructions with a fixed expansion (R89). `wait` is a loop of `rd STATUS`; `waitEnds` of
Machine/Program.lean says when it stops. -/
inductive Pseudo where
  | ldKey (imm : Block)
  | ldDin (imm : Block)
  | rdDout
  | rdDin
  | nop
  | perm
  | enc
  | clr
deriving DecidableEq, Repr

end Sys2Proof
end

