-- ==== Sys2Proof/WellFormed.lean ====
section
/-! DEFINITION. Which terms of the syntax the spec admits. -/

namespace Sys2Proof

/-- Every instruction is well formed: its only operand is a whole 32-bit `WDATA`, with no field a check could refuse
(30_encoding.md R81, R86). -/
def Instr.wellFormed : Instr → Bool
  | .rdKeyLo | .rdKeyHi | .rdDinLo | .rdDinHi | .rdDoutLo | .rdDoutHi | .rdCtrl | .rdStatus => true
  | .wrKeyLo _ | .wrKeyHi _ | .wrDinLo _ | .wrDinHi _ | .wrDoutLo _ | .wrDoutHi _ | .wrCtrl _ | .wrStatus _ => true
  | .nop | .perm | .enc => true

/-- A raw access names 1, 2 or 4 bytes at an offset of the 32-byte window (R88). -/
def HostLine.wellFormed : HostLine → Bool
  | .wr _ _ | .rd _ => true
  | .wrx off n _ | .rdx off n => decide (off < 32) && (n == 1 || n == 2 || n == 4)

end Sys2Proof
end

