-- ==== Sys2Proof/Decode.lean ====
section
/-! DEFINITION. Encodings: the transaction header (30_encoding.md R81, R82), the command word (R83 to R85), the
decoder, the encoder, and the numbering of spec/opcode_table.json. -/

namespace Sys2Proof

/-- Offset of a register in the window (20_memory.md R52). -/
def Reg.offset : Reg → BitVec 5
  | .keyLo => 0x00#5
  | .keyHi => 0x04#5
  | .dinLo => 0x08#5
  | .dinHi => 0x0C#5
  | .doutLo => 0x10#5
  | .doutHi => 0x14#5
  | .ctrl => 0x18#5
  | .status => 0x1C#5

/-- The register whose four bytes hold an offset; `OFF[4:2]` selects it. There are no holes and no aliases (R52). -/
def Reg.ofOffset (off : BitVec 5) : Reg :=
  match off.getLsbD 4, off.getLsbD 3, off.getLsbD 2 with
  | false, false, false => .keyLo
  | false, false, true => .keyHi
  | false, true, false => .dinLo
  | false, true, true => .dinHi
  | true, false, false => .doutLo
  | true, false, true => .doutHi
  | true, true, false => .ctrl
  | true, true, true => .status

/-- The size code of a 4-byte access (R82). -/
def sizeWord : BitVec 2 := 0b10#2

/-- The packed header `DIR << 7 | SZ << 5 | OFF` (R81). -/
def Transaction.header (t : Transaction) : BitVec 8 :=
  BitVec.ofBool t.wr ++ t.size ++ t.off

/-- The transaction with a given header and write data (R81). -/
def Transaction.ofHeader (header : BitVec 8) (wdata : Word) : Transaction where
  wr := header.getLsbD 7
  size := header.extractLsb' 5 2
  off := header.extractLsb' 0 5
  wdata := wdata

/-- `Admit(size, off)`: only a whole, aligned word is admitted (20_memory.md R55). -/
def admits (size : BitVec 2) (off : BitVec 5) : Bool := size == sizeWord && off.extractLsb' 0 2 == 0b00#2

/-- Whether the block admits a transaction (R55). -/
def Transaction.admitted (t : Transaction) : Bool := admits t.size t.off

/-- The bus error of a transaction that is not admitted (R55, R82). -/
def Transaction.busError (t : Transaction) : Reject :=
  if t.size = sizeWord then .misaligned
  else if t.size = 0b11#2 then .reservedSize
  else .subWord

/-- The read of a register (42_host_interface.md R150). -/
def Reg.readInstr : Reg → Instr
  | .keyLo => .rdKeyLo
  | .keyHi => .rdKeyHi
  | .dinLo => .rdDinLo
  | .dinHi => .rdDinHi
  | .doutLo => .rdDoutLo
  | .doutHi => .rdDoutHi
  | .ctrl => .rdCtrl
  | .status => .rdStatus

/-- The write of a register (R150). -/
def Reg.writeInstr (r : Reg) (wdata : Word) : Instr :=
  match r with
  | .keyLo => .wrKeyLo wdata
  | .keyHi => .wrKeyHi wdata
  | .dinLo => .wrDinLo wdata
  | .dinHi => .wrDinHi wdata
  | .doutLo => .wrDoutLo wdata
  | .doutHi => .wrDoutHi wdata
  | .ctrl => .wrCtrl wdata
  | .status => .wrStatus wdata

/-- Decode of a bus transaction: admission first, then the case over `(DIR, OFF)` (R150). -/
def decodeTransaction (t : Transaction) : Decoded :=
  if t.admitted then
    .instr (if t.wr then (Reg.ofOffset t.off).writeInstr t.wdata else (Reg.ofOffset t.off).readInstr)
  else .rejected t.busError

/-- Decode of a command word; `none` is `ILLEGAL` (R84). -/
def commandOf (word : Word) : Option Command :=
  if word.extractLsb' 2 30 ≠ 0#30 then none
  else if word.extractLsb' 0 2 = 0b00#2 then some .nop
  else if word.extractLsb' 0 2 = 0b01#2 then some .perm
  else if word.extractLsb' 0 2 = 0b10#2 then some .enc
  else none

/-- The word of a command (R84). -/
def Command.word : Command → Word
  | .nop => 0x00000000#32
  | .perm => 0x00000001#32
  | .enc => 0x00000002#32

/-- The instruction of a command. -/
def Command.instr : Command → Instr
  | .nop => .nop
  | .perm => .perm
  | .enc => .enc

/-- Decode of a command word as an instruction (R84, R85). -/
def decodeCommand (word : Word) : Decoded :=
  match commandOf word with
  | some c => .instr c.instr
  | none => .rejected .illegalCommand

/-- The decoder, total on requests. -/
def decode : Request → Decoded
  | .bus t => decodeTransaction t
  | .command w => decodeCommand w

/-- The whole-word read of a register. Reads have no write data; the encoder puts zeros there. -/
def Reg.readTransaction (r : Reg) : Transaction :=
  { wr := false, size := sizeWord, off := r.offset, wdata := 0#32 }

/-- The whole-word write of a register. -/
def Reg.writeTransaction (r : Reg) (wdata : Word) : Transaction :=
  { wr := true, size := sizeWord, off := r.offset, wdata := wdata }

/-- The encoder: the request an instruction is (R82, R84). -/
def encode : Instr → Request
  | .rdKeyLo => .bus Reg.keyLo.readTransaction
  | .rdKeyHi => .bus Reg.keyHi.readTransaction
  | .rdDinLo => .bus Reg.dinLo.readTransaction
  | .rdDinHi => .bus Reg.dinHi.readTransaction
  | .rdDoutLo => .bus Reg.doutLo.readTransaction
  | .rdDoutHi => .bus Reg.doutHi.readTransaction
  | .rdCtrl => .bus Reg.ctrl.readTransaction
  | .rdStatus => .bus Reg.status.readTransaction
  | .wrKeyLo w => .bus (Reg.keyLo.writeTransaction w)
  | .wrKeyHi w => .bus (Reg.keyHi.writeTransaction w)
  | .wrDinLo w => .bus (Reg.dinLo.writeTransaction w)
  | .wrDinHi w => .bus (Reg.dinHi.writeTransaction w)
  | .wrDoutLo w => .bus (Reg.doutLo.writeTransaction w)
  | .wrDoutHi w => .bus (Reg.doutHi.writeTransaction w)
  | .wrCtrl w => .bus (Reg.ctrl.writeTransaction w)
  | .wrStatus w => .bus (Reg.status.writeTransaction w)
  | .nop => .command Command.nop.word
  | .perm => .command Command.perm.word
  | .enc => .command Command.enc.word

/-- The bus transaction that carries a request: a command word is the data of a write to `CTRL` (R83). -/
def Request.transaction : Request → Transaction
  | .bus t => t
  | .command w => Reg.ctrl.writeTransaction w

/-- The bits of a request numbered as the table numbers them: a header is bits 7..0 and the write data that follows it
is bits 39..8 (R81); a command word is bits 31..0. DESIGN CHOICE, safe: the table gives `WDATA` no bits (log 4). -/
def Request.packed : Request → Nat
  | .bus t => if t.wr then t.header.toNat + 256 * t.wdata.toNat else t.header.toNat
  | .command w => w.toNat

/-- How many bits `packed` numbers: a read is its header alone, a write its header and `WDATA` (R81, R83). -/
def Request.width : Request → Nat
  | .bus t => if t.wr then 40 else 8
  | .command _ => 32

/-- The request whose bits are `w`: an 8-bit header alone (its write data, if any, zero), a header with the write data
that follows it, or a 32-bit command word. -/
def Request.ofTableWord (nbits w : Nat) : Option Request :=
  if nbits = 8 then some (.bus (.ofHeader (BitVec.ofNat 8 w) 0#32))
  else if nbits = 40 then some (.bus (.ofHeader (BitVec.ofNat 8 w) (BitVec.ofNat 32 (w / 256))))
  else if nbits = 32 then some (.command (BitVec.ofNat 32 w))
  else none

/-- The instruction a decoder answers, if it answers one. -/
def Decoded.instr? : Decoded → Option Instr
  | .instr i => some i
  | .rejected _ => none

/-- The instruction that the decoder reads from a word of the opcode table. -/
def decodeTableWord (nbits w : Nat) : Option Instr :=
  (Request.ofTableWord nbits w).bind fun r => (decode r).instr?

end Sys2Proof
end

