-- ==== Sys2Proof/Machine/State.lean ====
section
/-! DEFINITION. The state of one block instance (10_state.md R20), the inputs still to come, the response to the host,
and the state after reset. -/

namespace Sys2Proof.Machine

/-- `MODE`, the latch of the running operation: 0 = PERM, 1 = ENC (10_state.md R33). -/
inductive Mode where
  | perm
  | enc
deriving DecidableEq, Repr

/-- The response of a transaction: the ports `rdata` and `err` in its cycle (30_encoding.md R80). -/
structure Response where
  rdata : Word
  err : Bool
deriving DecidableEq, Repr

/-- One atomic event of the total order (20_memory.md R58): a step of one of the three agents (00_scope.md R9). -/
inductive Event where
  /-- The Host presents a request. -/
  | host (r : Request)
  /-- The Core takes its step, if it has one. -/
  | core
  /-- A clock edge with `rst_n = 0`. -/
  | reset
deriving DecidableEq, Repr

/-- The state. `key` to `mode` are the block's (R20); `resp` and `events` are the model's own. -/
structure State where
  /-- `KEY` (R21). -/
  key : Block
  /-- `DIN` (R22). -/
  din : Block
  /-- `DOUT` (R23). -/
  dout : Block
  /-- `STATUS.BUSY` (R26). -/
  busy : Bool
  /-- `STATUS.DONE` (R27). -/
  done : Bool
  /-- `STATUS.ERR_CMD` (R28). -/
  errCmd : Bool
  /-- `STATUS.ERR_BUSY` (R29). -/
  errBusy : Bool
  /-- `H`, the working high half (R31). -/
  h : Word
  /-- `L`, the working low half (R31). -/
  l : Word
  /-- `I`, the round counter (R32). -/
  i : BitVec 5
  /-- `MODE` (R33). -/
  mode : Mode
  /-- The response of the event that has just acted; none when it was no transaction (log 3). -/
  resp : Option Response
  /-- The events still to come, in the order in which they act (log 1). -/
  events : List Event
deriving DecidableEq, Repr

/-- No event is a fault: each is "an observable outcome of the transaction, not ... a fault of the model" (60_exceptions.md
R201), so there is no fault to name and no one raises one (safe, log 8). -/
inductive Fault where
deriving DecidableEq, Repr

/-- Why the model gives an instruction no meaning. -/
inductive Refusal where
  /-- Raised by `exec` alone, for an instruction that has no meaning yet (safe). No arm of `exec` raises it. -/
  | notModelled (mnemonic : String)
deriving DecidableEq, Repr

/-- The state after reset (70_reset_and_hazards.md R231). DESIGN CHOICE for the model's own fields: no response stands
(log 3) and no event is scheduled (log 1). -/
def State.reset : State where
  key := 0x0000000000000000#64
  din := 0x0000000000000000#64
  dout := 0x0000000000000000#64
  busy := false
  done := false
  errCmd := false
  errBusy := false
  h := 0x00000000#32
  l := 0x00000000#32
  i := 0#5
  mode := .perm
  resp := none
  events := []

end Sys2Proof.Machine
end

