-- ==== Sys2Proof/Machine/Flags.lean ====
section
/-! DEFINITION. The `STATUS` register: its read value and its write-one-to-clear bits (10_state.md R25 to R30). -/

namespace Sys2Proof.Machine

/-- What a read of `STATUS` returns: `zext_32(ERR_BUSY || ERR_CMD || DONE || BUSY)` (R25). -/
def statusWord (s : State) : Word :=
  (BitVec.ofBool s.errBusy ++ BitVec.ofBool s.errCmd ++ BitVec.ofBool s.done ++ BitVec.ofBool s.busy).setWidth 32

/-- The write of `STATUS`: bits 3:1 clear where written 1; bit 0 and bits 31:4 are ignored (R25, R30,
42_host_interface.md R167). -/
def clearStatus (w : Word) (s : State) : State :=
  { s with
    done := s.done && !w.getLsbD 1
    errCmd := s.errCmd && !w.getLsbD 2
    errBusy := s.errBusy && !w.getLsbD 3 }

end Sys2Proof.Machine
end

