-- ==== Sys2Proof/Machine/Operands.lean ====
section
/-! DEFINITION. The halves of the 64-bit registers (20_memory.md R53, 30_encoding.md R86). -/

namespace Sys2Proof.Machine

/-- `v[31:0]`, the half at the lower offset (R53). -/
def lowHalf (v : Block) : Word := v.extractLsb' 0 32

/-- `v[63:32]`, the half at offset + 4 (R53). -/
def highHalf (v : Block) : Word := v.extractLsb' 32 32

/-- The 64-bit value `hi || lo` (R86). -/
def joinHalves (hi lo : Word) : Block := hi ++ lo

/-- `v[31:0] <- w`; the other half keeps its value. -/
def setLowHalf (v : Block) (w : Word) : Block := joinHalves (highHalf v) w

/-- `v[63:32] <- w`; the other half keeps its value. -/
def setHighHalf (v : Block) (w : Word) : Block := joinHalves w (lowHalf v)

end Sys2Proof.Machine
end

