-- ==== Sys2Proof/Machine/Permutation.lean ====
section
/-! DEFINITION. The functions the block computes (40_permutation.md R100 to R106, 41_block_cipher.md R130). -/

namespace Sys2Proof.Machine

/-- The round-constant ROM `RC[0..7]`, 5 bits an entry (R100). The values are the spec's; they are UNVERIFIED against
the repository the spec describes (unsafe, log 6). -/
def roundConstants : List (BitVec 5) := [1, 29, 4, 8, 17, 12, 3, 14]

/-- The rotation amount `r_i = RC[i mod 8]` (R101; 90_conflicts.md C2). -/
def rotation (i : BitVec 5) : Nat := (roundConstants.getD (i.toNat % 8) 0).toNat

/-- `rotl32(v, r)` (00_scope.md R7). -/
def rotl32 (v : Word) (r : Nat) : Word := (v <<< r) ||| (v >>> (32 - r))

/-- `rotr32(v, r) = rotl32(v, 32 - r)` (R106). -/
def rotr32 (v : Word) (r : Nat) : Word := rotl32 v (32 - r)

/-- The mixing step `MixStep(h, l, i)`: add, rotate, XOR, then add the step index (R102; 90_conflicts.md C3). -/
def mixStep (h l : Word) (i : BitVec 5) : Word × Word :=
  let h1 := h + l
  let l1 := rotl32 l (rotation i)
  let l2 := l1 ^^^ h1
  let l3 := l2 + i.setWidth 32
  (h1, l3)

/-- `Combine(h, l)`: the low half is XORed in (R103; 90_conflicts.md C1). -/
def combine (h l : Word) : Block := (h.setWidth 64 <<< 32) ^^^ l.setWidth 64

/-- Mixing steps `0 .. n - 1` of `Permute`, on a pair of halves (R104). -/
def mixSteps : Nat → Word × Word → Word × Word
  | 0, p => p
  | n + 1, p =>
    let q := mixSteps n p
    mixStep q.1 q.2 (BitVec.ofNat 5 n)

/-- `Permute(x)` (R104). -/
def permute (x : Block) : Block :=
  let q := mixSteps 32 (highHalf x, lowHalf x)
  combine q.1 q.2

/-- The input of a mixing step, recovered from its output (R106). -/
def unmixStep (h1 l3 : Word) (i : BitVec 5) : Word × Word :=
  let l2 := l3 - i.setWidth 32
  let l1 := l2 ^^^ h1
  let l := rotr32 l1 (rotation i)
  let h := h1 - l
  (h, l)

/-- Undoes mixing steps `n - 1` down to 0 (R106). -/
def unmixSteps : Nat → Word × Word → Word × Word
  | 0, p => p
  | n + 1, p => unmixSteps n (unmixStep p.1 p.2 (BitVec.ofNat 5 n))

/-- `InvPermute(y)`: a law for proofs, not a command of the block (R106). -/
def invPermute (y : Block) : Block :=
  let q := unmixSteps 32 (highHalf y, lowHalf y)
  joinHalves q.1 q.2

/-- `EncryptBlock(k, p) = Permute(k ^ p) ^ k` (41_block_cipher.md R130). -/
def encryptBlock (k p : Block) : Block := permute (k ^^^ p) ^^^ k

end Sys2Proof.Machine
end

