-- ==== Sys2Proof/Machine/Ops.lean ====
section
/-! DEFINITION. The operations the instructions and the agents share: responses, the three error events (in place of
exception entry, which the block does not have: 60_exceptions.md R204), starting an operation, the Core's step, reset. -/

namespace Sys2Proof.Machine

/-- A normal response, `err = 0` (42_host_interface.md R150). -/
def answer (rdata : Word) (s : State) : State := { s with resp := some { rdata := rdata, err := false } }

/-- `BUS_ERROR`: an error response and nothing else (20_memory.md R55, 60_exceptions.md R201). -/
def raiseBusError (s : State) : State := { s with resp := some { rdata := 0#32, err := true } }

/-- `CMD_ERROR`: the sticky bit and nothing else (42_host_interface.md R169). -/
def raiseCommandError (s : State) : State := { s with errCmd := true }

/-- `BUSY_ERROR`: the write is dropped with a normal response (R151). -/
def busyDrop (s : State) : State := answer 0#32 { s with errBusy := true }

/-- A write that is dropped while BUSY; otherwise its effect, with the response of a write (R151, R160 to R163, R166). -/
def writeWhenIdle (effect : State → State) (s : State) : State :=
  if s.busy then busyDrop s else answer 0#32 (effect s)

/-- `K_eff`: the key the whitening of an operation uses (40_permutation.md R107, R109). -/
def effectiveKey (m : Mode) (key : Block) : Block :=
  match m with
  | .perm => 0x0000000000000000#64
  | .enc => key

/-- `Start(m)` (R107). -/
def start (m : Mode) (s : State) : State :=
  let t := s.din ^^^ effectiveKey m s.key
  { s with
    h := highHalf t
    l := lowHalf t
    i := 0#5
    mode := m
    busy := true
    done := false }

/-- The effect of a decoded command word; `none` is an illegal word (42_host_interface.md R166). -/
def commandEffect (c : Option Command) (s : State) : State :=
  match c with
  | some .nop => s
  | some .perm => start .perm s
  | some .enc => start .enc s
  | none => raiseCommandError s

/-- The Core's step with `I < 31` (40_permutation.md R108). -/
def advance (s : State) : State :=
  let q := mixStep s.h s.l s.i
  { s with h := q.1, l := q.2, i := s.i + 1#5 }

/-- The Core's step with `I = 31`: the last mixing step and the completion, in one step (R109). -/
def complete (s : State) : State :=
  let q := mixStep s.h s.l 31#5
  { s with
    dout := combine q.1 q.2 ^^^ effectiveKey s.mode s.key
    h := q.1
    l := q.2
    i := 0#5
    busy := false
    done := true }

/-- The Core has a step exactly while BUSY; otherwise nothing changes (R110). -/
def coreStep (s : State) : State :=
  if s.busy then (if s.i = 31#5 then complete s else advance s) else s

/-- No transaction has just been answered (log 3). -/
def noResponse (s : State) : State := { s with resp := none }

/-- `Reset()`: every item of state takes its reset value (70_reset_and_hazards.md R231). What the environment still has
to present is no state of the block and stays. -/
def resetBlock (s : State) : State := { State.reset with events := s.events }

/-- What an admitted read of a register returns (20_memory.md R52). -/
def windowRead (r : Reg) (s : State) : Word :=
  match r with
  | .keyLo => 0x00000000#32
  | .keyHi => 0x00000000#32
  | .dinLo => lowHalf s.din
  | .dinHi => highHalf s.din
  | .doutLo => lowHalf s.dout
  | .doutHi => highHalf s.dout
  | .ctrl => 0x00000000#32
  | .status => statusWord s

end Sys2Proof.Machine
end

