-- ==== Sys2Proof/Machine/Control.lean ====
section
/-! DEFINITION. `WR_CTRL` and the three commands (42_host_interface.md R166, R168; 40_permutation.md R107;
41_block_cipher.md R131). A command, like any write to `CTRL`, is dropped while BUSY (R151). -/

namespace Sys2Proof.Machine

/-- `WR_CTRL`: a dropped word is not decoded (R151, R166). -/
def execWrCtrl (wdata : Word) (s : State) : Host.Outcome State Fault Refusal :=
  .next (writeWhenIdle (commandEffect (commandOf wdata)) s)

/-- `NOP` (R168). -/
def execNop (s : State) : Host.Outcome State Fault Refusal := .next (writeWhenIdle (commandEffect (some .nop)) s)

/-- `PERM` (40_permutation.md R107). -/
def execPerm (s : State) : Host.Outcome State Fault Refusal := .next (writeWhenIdle (commandEffect (some .perm)) s)

/-- `ENC` (41_block_cipher.md R131). -/
def execEnc (s : State) : Host.Outcome State Fault Refusal := .next (writeWhenIdle (commandEffect (some .enc)) s)

end Sys2Proof.Machine
end

