-- ==== Sys2Proof/Machine/Reads.lean ====
section
/-! DEFINITION. The eight reads (42_host_interface.md R152 to R159). A read changes nothing but the response. -/

namespace Sys2Proof.Machine

/-- `RD_KEY_LO`: the key is not readable (R152). -/
def execRdKeyLo (s : State) : Host.Outcome State Fault Refusal := .next (answer (windowRead .keyLo s) s)

/-- `RD_KEY_HI` (R153). -/
def execRdKeyHi (s : State) : Host.Outcome State Fault Refusal := .next (answer (windowRead .keyHi s) s)

/-- `RD_DIN_LO` (R154). -/
def execRdDinLo (s : State) : Host.Outcome State Fault Refusal := .next (answer (windowRead .dinLo s) s)

/-- `RD_DIN_HI` (R155). -/
def execRdDinHi (s : State) : Host.Outcome State Fault Refusal := .next (answer (windowRead .dinHi s) s)

/-- `RD_DOUT_LO` (R156). -/
def execRdDoutLo (s : State) : Host.Outcome State Fault Refusal := .next (answer (windowRead .doutLo s) s)

/-- `RD_DOUT_HI` (R157). -/
def execRdDoutHi (s : State) : Host.Outcome State Fault Refusal := .next (answer (windowRead .doutHi s) s)

/-- `RD_CTRL`: `CTRL` stores nothing (R158). -/
def execRdCtrl (s : State) : Host.Outcome State Fault Refusal := .next (answer (windowRead .ctrl s) s)

/-- `RD_STATUS`: the read clears nothing (R159). -/
def execRdStatus (s : State) : Host.Outcome State Fault Refusal := .next (answer (windowRead .status s) s)

end Sys2Proof.Machine
end

