-- ==== Sys2Proof/Machine/Writes.lean ====
section
/-! DEFINITION. The writes but for `CTRL` (42_host_interface.md R160 to R165, R167). -/

namespace Sys2Proof.Machine

/-- `WR_KEY_LO` (R160). -/
def execWrKeyLo (wdata : Word) (s : State) : Host.Outcome State Fault Refusal :=
  .next (writeWhenIdle (fun u => { u with key := setLowHalf u.key wdata }) s)

/-- `WR_KEY_HI` (R161). -/
def execWrKeyHi (wdata : Word) (s : State) : Host.Outcome State Fault Refusal :=
  .next (writeWhenIdle (fun u => { u with key := setHighHalf u.key wdata }) s)

/-- `WR_DIN_LO` (R162). -/
def execWrDinLo (wdata : Word) (s : State) : Host.Outcome State Fault Refusal :=
  .next (writeWhenIdle (fun u => { u with din := setLowHalf u.din wdata }) s)

/-- `WR_DIN_HI` (R163). -/
def execWrDinHi (wdata : Word) (s : State) : Host.Outcome State Fault Refusal :=
  .next (writeWhenIdle (fun u => { u with din := setHighHalf u.din wdata }) s)

/-- `WR_DOUT_LO`: accepted and ignored, whether or not the block is BUSY (R164). -/
def execWrDoutLo (_wdata : Word) (s : State) : Host.Outcome State Fault Refusal := .next (answer 0#32 s)

/-- `WR_DOUT_HI`: accepted and ignored (R165). -/
def execWrDoutHi (_wdata : Word) (s : State) : Host.Outcome State Fault Refusal := .next (answer 0#32 s)

/-- `WR_STATUS`: acts whether or not the block is BUSY (R167). -/
def execWrStatus (wdata : Word) (s : State) : Host.Outcome State Fault Refusal :=
  .next (answer 0#32 (clearStatus wdata s))

end Sys2Proof.Machine
end

