-- ==== Sys2Proof/Machine/Dispatch.lean ====
section
/-! DEFINITION. The meaning of every instruction. -/

namespace Sys2Proof.Machine

def exec (i : Instr) (s : State) : Host.Outcome State Fault Refusal :=
  match i with
  | .rdKeyLo => Sys2Proof.Machine.execRdKeyLo s
  | .rdKeyHi => Sys2Proof.Machine.execRdKeyHi s
  | .rdDinLo => Sys2Proof.Machine.execRdDinLo s
  | .rdDinHi => Sys2Proof.Machine.execRdDinHi s
  | .rdDoutLo => Sys2Proof.Machine.execRdDoutLo s
  | .rdDoutHi => Sys2Proof.Machine.execRdDoutHi s
  | .rdCtrl => Sys2Proof.Machine.execRdCtrl s
  | .rdStatus => Sys2Proof.Machine.execRdStatus s
  | .wrKeyLo wdata => Sys2Proof.Machine.execWrKeyLo wdata s
  | .wrKeyHi wdata => Sys2Proof.Machine.execWrKeyHi wdata s
  | .wrDinLo wdata => Sys2Proof.Machine.execWrDinLo wdata s
  | .wrDinHi wdata => Sys2Proof.Machine.execWrDinHi wdata s
  | .wrDoutLo wdata => Sys2Proof.Machine.execWrDoutLo wdata s
  | .wrDoutHi wdata => Sys2Proof.Machine.execWrDoutHi wdata s
  | .wrCtrl wdata => Sys2Proof.Machine.execWrCtrl wdata s
  | .wrStatus wdata => Sys2Proof.Machine.execWrStatus wdata s
  | .nop => Sys2Proof.Machine.execNop s
  | .perm => Sys2Proof.Machine.execPerm s
  | .enc => Sys2Proof.Machine.execEnc s

end Sys2Proof.Machine
end

