-- ==== Sys2Proof/Machine/Agents.lean ====
section
/-! DEFINITION. One atomic event of each agent (00_scope.md R9, 20_memory.md R58). -/

namespace Sys2Proof.Machine

/-- The block's answer to a request that is no instruction: a bus error (20_memory.md R55), or, for a command word that
is not legal, what the same write to `CTRL` does (42_host_interface.md R169, R151). -/
def rejectRequest (why : Reject) (s : State) : State :=
  match why with
  | .subWord => raiseBusError s
  | .reservedSize => raiseBusError s
  | .misaligned => raiseBusError s
  | .illegalCommand => writeWhenIdle raiseCommandError s

/-- The Host's step: one transaction, handled atomically (42_host_interface.md R150). -/
def hostStep (r : Request) (s : State) : Host.Outcome State Fault Refusal :=
  match decode r with
  | .instr i => exec i s
  | .rejected why => .next (rejectRequest why s)

/-- The step of the agent that an event names. -/
def eventStep (e : Event) (s : State) : Host.Outcome State Fault Refusal :=
  match e with
  | .host r => hostStep r s
  | .core => .next (coreStep (noResponse s))
  | .reset => .next (resetBlock s)

/-- The next event of the schedule. When none is left the Host has no more transactions: the Core goes on while BUSY
(weak fairness, 70_reset_and_hazards.md R240), and after that nothing changes (00_scope.md R11, log 2). -/
def nextEvent (s : State) : Event :=
  match s.events with
  | [] => .core
  | e :: _ => e

/-- The state in which the next event acts: the event is taken off the schedule. -/
def takeEvent (s : State) : State := { s with events := s.events.tail }

/-- A list of events, one after another: each sees the state that all earlier ones left (R58). -/
def runEvents : List Event → State → Host.Outcome State Fault Refusal
  | [], s => .next s
  | e :: rest, s =>
    match eventStep e s with
    | .next t => runEvents rest t
    | .fault why => .fault why
    | .refused why => .refused why

/-- `s` with a request placed as its very next event; the events already scheduled follow it. -/
def presentNext (r : Request) (s : State) : State := { s with events := .host r :: s.events }

end Sys2Proof.Machine
end

