-- ==== Sys2Proof/Machine/Step.lean ====
section
/-! DEFINITION. One step of the machine: one atomic event (20_memory.md R58). -/

namespace Sys2Proof.Machine

/-- The machine takes the next event of the schedule. -/
def step (s : State) : Host.Outcome State Fault Refusal := eventStep (nextEvent s) (takeEvent s)

/-- `s` with the host presenting, as the very next event, the request whose bits are `w` (log 10). A width that no row
of the table has stands for no request. -/
def State.withFetchWord (s : State) (nbits w : Nat) : State :=
  match Request.ofTableWord nbits w with
  | some r => presentNext r s
  | none => s

end Sys2Proof.Machine
end

