-- ==== Sys2Proof/Machine/Clock.lean ====
section
/-! DEFINITION. The reference hardware's clock (30_encoding.md R80, 70_reset_and_hazards.md R230, R232, R242): which
events one rising edge of `clk` is. Nothing in `step` or in a meaning depends on it. -/

namespace Sys2Proof.Machine

/-- The input ports sampled at one rising edge: `rst_n`, `sel`, and the transaction ports (R80). -/
structure Cycle where
  rstN : Bool
  sel : Bool
  txn : Transaction
deriving DecidableEq, Repr

/-- The transaction a cycle presents, if any. -/
def Cycle.hostEvents (c : Cycle) : List Event := if c.sel then [.host (.bus c.txn)] else []

/-- The events of one edge. Reset overrides everything else (R230, R231); otherwise the transaction acts first and then
the Core, which steps if an operation was in progress when the edge came (60_exceptions.md R203, R242; log 9). -/
def Cycle.events (c : Cycle) (s : State) : List Event :=
  if c.rstN then c.hostEvents ++ (if s.busy then [.core] else []) else [.reset]

/-- One rising edge. -/
def clockEdge (c : Cycle) (s : State) : Host.Outcome State Fault Refusal := runEvents (c.events s) s

/-- Rising edges, one after another. -/
def clockRun : List Cycle → State → Host.Outcome State Fault Refusal
  | [], s => .next s
  | c :: rest, s =>
    match clockEdge c s with
    | .next t => clockRun rest t
    | .fault why => .fault why
    | .refused why => .refused why

/-- The response in a cycle that presents a transaction: zeros and no error in a reset cycle (R232), otherwise what the
transaction answers in the state before the edge (R80, R203). -/
def clockResponse (c : Cycle) (s : State) : Option Response :=
  if c.sel then
    if c.rstN then
      match hostStep (.bus c.txn) s with
      | .next t => t.resp
      | .fault _ => none
      | .refused _ => none
    else some { rdata := 0#32, err := false }
  else none

end Sys2Proof.Machine
end

