-- ==== Sys2Proof/Config.lean ====
section
/-! DEFINITION. What an implementation or a platform fixes (00_scope.md R5). Every value the block computes is defined
by the spec, so the base address is the only open value. -/

namespace Sys2Proof.Config

/-- Which 32-byte slot of the platform's address space the window occupies. `BASE` is OPEN (20_memory.md R51, 92 D3):
the constant has no body, so nothing can be proved of its value. -/
opaque baseIndex : Nat

/-- `BASE`, the address of the window: a multiple of 32 (R51). -/
def base : Nat := 32 * baseIndex

/-- `LATENCY` of the reference timing (R5, 70_reset_and_hazards.md R242). Neither the meanings nor `step` use it. -/
def referenceLatency : Nat := 32

end Sys2Proof.Config
end

