-- ==== Sys2Proof/Machine/Program.lean ====
section
/-! DEFINITION. How a host reaches the window: addresses (20_memory.md R51), the notation of host programs
(30_encoding.md R88) and the pseudo-instructions (R89). -/

namespace Sys2Proof.Machine

/-- `sz(n)` (R82, R88): the size code of an access of `n` bytes. -/
def sizeCode (n : Nat) : Option (BitVec 2) :=
  if n = 1 then some 0b00#2
  else if n = 2 then some 0b01#2
  else if n = 4 then some 0b10#2
  else none

/-- `MemWrite(addr, n, v)` (or, with `wr` false, `MemRead(addr, n)`) as the block sees it: the platform decides that the
address lies in the window, and the block decodes the low five address bits (R51). -/
def busAccess (wr : Bool) (addr n : Nat) (v : Word) : Option Transaction :=
  if Config.base ≤ addr ∧ addr < Config.base + 32 then
    (sizeCode n).map fun sz => { wr := wr, size := sz, off := BitVec.ofNat 5 addr, wdata := v }
  else none

/-- The transaction a line of a host program issues (R88). -/
def lineTransaction : HostLine → Option Transaction
  | .wr r imm => busAccess true (Config.base + r.offset.toNat) 4 imm
  | .rd r => busAccess false (Config.base + r.offset.toNat) 4 0#32
  | .wrx off n imm => busAccess true (Config.base + off) n imm
  | .rdx off n => busAccess false (Config.base + off) n 0#32

/-- The expansion of a pseudo-instruction (R89). -/
def expand : Pseudo → List HostLine
  | .ldKey imm => [.wr .keyLo (lowHalf imm), .wr .keyHi (highHalf imm)]
  | .ldDin imm => [.wr .dinLo (lowHalf imm), .wr .dinHi (highHalf imm)]
  | .rdDout => [.rd .doutLo, .rd .doutHi]
  | .rdDin => [.rd .dinLo, .rd .dinHi]
  | .nop => [.wr .ctrl 0x00000000#32]
  | .perm => [.wr .ctrl 0x00000001#32]
  | .enc => [.wr .ctrl 0x00000002#32]
  | .clr => [.wr .status 0x0000000E#32]

/-- The events of a pseudo-instruction: its transactions, in order. -/
def pseudoEvents (p : Pseudo) : List Event :=
  (expand p).filterMap fun line => (lineTransaction line).map fun t => .host (.bus t)

/-- The line that `wait` repeats (R89). -/
def waitPoll : HostLine := .rd .status

/-- When the loop of `wait` ends: `DONE`, `ERR_CMD` or `ERR_BUSY` is 1 in the value read (R89). -/
def waitEnds (status : Word) : Bool := status &&& 0x0000000E#32 != 0#32

end Sys2Proof.Machine
end

