-- ==== Sys2Proof/Safety.lean ====
section
/-! DEFINITION. The terms in which claims about the block are made: runs, which events ask for what, the invariants of
10_state.md R36 to R38, and what an operation in progress holds. -/

namespace Sys2Proof.Machine

/-- `n` steps of the machine, in the model's own types (Laws/Runs.lean: it is `Host.Core.run Sys2Proof.core`). -/
def runSteps : Nat → State → Host.Outcome State Fault Refusal
  | 0, s => .next s
  | n + 1, s =>
    match step s with
    | .next t => runSteps n t
    | .fault why => .fault why
    | .refused why => .refused why

/-- `s` with a given list of events still to come. -/
def withSchedule (es : List Event) (s : State) : State := { s with events := es }

/-- The data of a 4-byte write that an event makes to the register at `off`, read off the transaction's ports
(20_memory.md R52, R55). -/
def writeTo (off : BitVec 5) (e : Event) : Option Word :=
  match e with
  | .host r =>
    if r.transaction.wr = true ∧ r.transaction.size = 0b10#2 ∧ r.transaction.off = off then some r.transaction.wdata
    else none
  | .core => none
  | .reset => none

/-- The event writes `KEY_LO`, `KEY_HI`, `DIN_LO`, `DIN_HI` or `CTRL`: the writes that are dropped while BUSY
(42_host_interface.md R151). -/
def guardedWrite (e : Event) : Bool :=
  (writeTo 0x00#5 e).isSome || (writeTo 0x04#5 e).isSome || (writeTo 0x08#5 e).isSome || (writeTo 0x0C#5 e).isSome ||
    (writeTo 0x18#5 e).isSome

/-- The operation an event asks for: the command word 1 or 2 written to `CTRL` (30_encoding.md R84). -/
def startRequested (e : Event) : Option Mode :=
  match writeTo 0x18#5 e with
  | some w => if w = 1#32 then some .perm else if w = 2#32 then some .enc else none
  | none => none

/-- The event writes an illegal command word to `CTRL` (R85). -/
def illegalCommandWritten (e : Event) : Bool :=
  match writeTo 0x18#5 e with
  | some w => decide (w ≠ 0#32 ∧ w ≠ 1#32 ∧ w ≠ 2#32)
  | none => false

/-- The event is the Core's completion step in `s` (40_permutation.md R109). -/
def completes (e : Event) (s : State) : Bool := e == .core && s.busy && s.i == 31#5

/-- No event of `es`, performed one after another from `s`, completes an operation. -/
def CompletesNone (es : List Event) (s : State) : Prop :=
  ∀ (n : Nat) (u : State), n < es.length → runSteps n (withSchedule es s) = .next u → completes (nextEvent u) u = false

/-- The value an operation leaves in `DOUT` (R111, 41_block_cipher.md R132). -/
def operationResult (m : Mode) (k x : Block) : Block :=
  match m with
  | .perm => permute x
  | .enc => encryptBlock k x

/-- The halves after the first `n` mixing steps of an operation (R107, R108). -/
def halvesAfter (m : Mode) (k x : Block) (n : Nat) : Word × Word :=
  mixSteps n (highHalf (x ^^^ effectiveKey m k), lowHalf (x ^^^ effectiveKey m k))

/-- 10_state.md R36 and R37. -/
def StatusInvariant (s : State) : Prop :=
  (s.busy = false → s.i = 0#5) ∧ ¬(s.busy = true ∧ s.done = true)

/-- `s` is inside the operation `m` that started with key `k` and input `x`: its registers hold what the first `I` mixing
steps leave, and its operands stand (R31 to R33, R38). -/
def InOperation (m : Mode) (k x : Block) (s : State) : Prop :=
  s.busy = true ∧ s.mode = m ∧ s.key = k ∧ s.din = x ∧ (s.h, s.l) = halvesAfter m k x s.i.toNat

/-- The last accepted start was that of operation `m` with key `k` and input `x`: while BUSY the block is inside it, and
`DONE` shows that its result stands in `DOUT` (20_memory.md R59). -/
def OperationInvariant (m : Mode) (k x : Block) (s : State) : Prop :=
  (s.busy = true → InOperation m k x s) ∧
    (s.done = true → s.busy = false ∧ s.dout = operationResult m k x)

/-- Two states that differ in the key alone. -/
def SameButKey (s t : State) : Prop := { s with key := t.key } = t

/-- Two states that differ in the working halves alone. -/
def SameButHalves (s t : State) : Prop := { s with h := t.h, l := t.l } = t

/-- Two states that differ in nothing a host can read or infer from `STATUS`: only in the key and the working halves. -/
def SameButSecrets (s t : State) : Prop := { s with key := t.key, h := t.h, l := t.l } = t

end Sys2Proof.Machine
end

