-- ==== Sys2Proof/Certificates/Slice0/Obligations.lean ====
section
/-! DEFINITION. The statements for the provers. -/

open Sys2Proof Sys2Proof.Machine

/-! ## Encoding -/

/-- R81 to R84, R87: every instruction, with every operand, decodes from its encoding, also when the encoding is laid out
as one number of header and write data (the numbering of bits above the header is the model's: log 4). -/
def Obligations.EveryInstructionDecodesFromItsEncoding : Prop :=
  ∀ i : Instr, decode (encode i) = .instr i ∧ decodeTableWord (encode i).width (encode i).packed = some i

/-- R81: the header is `DIR << 7 | SZ << 5 | OFF`, and the header and the write data carry the whole transaction. -/
def Obligations.HeaderPacksDirSizeOffset : Prop :=
  ∀ t : Transaction,
    t.header.toNat = t.wr.toNat * 128 + t.size.toNat * 32 + t.off.toNat ∧
      Transaction.ofHeader t.header t.wdata = t

/-- R82: the sixteen admitted headers, each with its instruction. -/
def Obligations.AdmittedHeadersDecode : Prop :=
  ∀ w : Word,
    decode (.bus (.ofHeader 0x40#8 w)) = .instr .rdKeyLo ∧
    decode (.bus (.ofHeader 0x44#8 w)) = .instr .rdKeyHi ∧
    decode (.bus (.ofHeader 0x48#8 w)) = .instr .rdDinLo ∧
    decode (.bus (.ofHeader 0x4C#8 w)) = .instr .rdDinHi ∧
    decode (.bus (.ofHeader 0x50#8 w)) = .instr .rdDoutLo ∧
    decode (.bus (.ofHeader 0x54#8 w)) = .instr .rdDoutHi ∧
    decode (.bus (.ofHeader 0x58#8 w)) = .instr .rdCtrl ∧
    decode (.bus (.ofHeader 0x5C#8 w)) = .instr .rdStatus ∧
    decode (.bus (.ofHeader 0xC0#8 w)) = .instr (.wrKeyLo w) ∧
    decode (.bus (.ofHeader 0xC4#8 w)) = .instr (.wrKeyHi w) ∧
    decode (.bus (.ofHeader 0xC8#8 w)) = .instr (.wrDinLo w) ∧
    decode (.bus (.ofHeader 0xCC#8 w)) = .instr (.wrDinHi w) ∧
    decode (.bus (.ofHeader 0xD0#8 w)) = .instr (.wrDoutLo w) ∧
    decode (.bus (.ofHeader 0xD4#8 w)) = .instr (.wrDoutHi w) ∧
    decode (.bus (.ofHeader 0xD8#8 w)) = .instr (.wrCtrl w) ∧
    decode (.bus (.ofHeader 0xDC#8 w)) = .instr (.wrStatus w)

/-- R82, R90: a transaction is an instruction exactly when its size code is `10` and `OFF[1:0]` is `00`; every other one
decodes to no instruction. -/
def Obligations.OnlyAlignedWordsDecode : Prop :=
  ∀ t : Transaction,
    (∃ i, decode (.bus t) = .instr i) ↔ (t.size = 0b10#2 ∧ t.off.toNat % 4 = 0)

/-- R84, R85: only the words 0, 1 and 2 are commands. -/
def Obligations.CommandWordsDecode : Prop :=
  decode (.command 0x00000000#32) = .instr .nop ∧
  decode (.command 0x00000001#32) = .instr .perm ∧
  decode (.command 0x00000002#32) = .instr .enc ∧
  ∀ w : Word, w ≠ 0x00000000#32 → w ≠ 0x00000001#32 → w ≠ 0x00000002#32 →
    decode (.command w) = .rejected .illegalCommand

/-- R81, R82: a transaction that decodes is the encoding of what it decodes to; a read's write data is ignored. -/
def Obligations.DecodedTransactionReencodes : Prop :=
  ∀ (t : Transaction) (i : Instr), decode (.bus t) = .instr i →
    encode i = .bus { t with wdata := if t.wr then t.wdata else 0#32 }

/-- The model's choice (log 4), after R83: a command word presented by itself acts as the same word written to `CTRL`. -/
def Obligations.CommandActsAsCtrlWrite : Prop :=
  ∀ (w : Word) (s : State),
    hostStep (.command w) s = hostStep (.bus { wr := true, size := 0b10#2, off := 0x18#5, wdata := w }) s

/-! ## What each instruction does -/

/-- R152 to R159: each read, from its header, completes in every state, returns its register and changes nothing else. -/
def Obligations.ReadsCompleteAndChangeNothing : Prop :=
  ∀ (w : Word) (s : State),
    decode (.bus (.ofHeader 0x40#8 w)) = .instr .rdKeyLo ∧ decode (.bus (.ofHeader 0x44#8 w)) = .instr .rdKeyHi ∧
    decode (.bus (.ofHeader 0x48#8 w)) = .instr .rdDinLo ∧ decode (.bus (.ofHeader 0x4C#8 w)) = .instr .rdDinHi ∧
    decode (.bus (.ofHeader 0x50#8 w)) = .instr .rdDoutLo ∧ decode (.bus (.ofHeader 0x54#8 w)) = .instr .rdDoutHi ∧
    decode (.bus (.ofHeader 0x58#8 w)) = .instr .rdCtrl ∧ decode (.bus (.ofHeader 0x5C#8 w)) = .instr .rdStatus ∧
    exec .rdKeyLo s = .next { s with resp := some { rdata := 0x00000000#32, err := false } } ∧
    exec .rdKeyHi s = .next { s with resp := some { rdata := 0x00000000#32, err := false } } ∧
    exec .rdDinLo s = .next { s with resp := some { rdata := s.din.extractLsb' 0 32, err := false } } ∧
    exec .rdDinHi s = .next { s with resp := some { rdata := s.din.extractLsb' 32 32, err := false } } ∧
    exec .rdDoutLo s = .next { s with resp := some { rdata := s.dout.extractLsb' 0 32, err := false } } ∧
    exec .rdDoutHi s = .next { s with resp := some { rdata := s.dout.extractLsb' 32 32, err := false } } ∧
    exec .rdCtrl s = .next { s with resp := some { rdata := 0x00000000#32, err := false } } ∧
    exec .rdStatus s =
      .next { s with
        resp := some {
          rdata := (BitVec.ofBool s.errBusy ++ BitVec.ofBool s.errCmd ++ BitVec.ofBool s.done ++
            BitVec.ofBool s.busy).setWidth 32
          err := false } }

/-- R160 to R163: each of the four operand writes, from its header, replaces its half of its register while idle and
changes nothing else; while BUSY it sets `ERR_BUSY` and changes nothing else; the response is normal either way. -/
def Obligations.OperandWritesReplaceTheirHalf : Prop :=
  ∀ (w : Word) (s : State),
    decode (.bus (.ofHeader 0xC0#8 w)) = .instr (.wrKeyLo w) ∧
    decode (.bus (.ofHeader 0xC4#8 w)) = .instr (.wrKeyHi w) ∧
    decode (.bus (.ofHeader 0xC8#8 w)) = .instr (.wrDinLo w) ∧
    decode (.bus (.ofHeader 0xCC#8 w)) = .instr (.wrDinHi w) ∧
    (s.busy = false →
      exec (.wrKeyLo w) s =
        .next { s with key := s.key.extractLsb' 32 32 ++ w, resp := some { rdata := 0#32, err := false } } ∧
      exec (.wrKeyHi w) s =
        .next { s with key := w ++ s.key.extractLsb' 0 32, resp := some { rdata := 0#32, err := false } } ∧
      exec (.wrDinLo w) s =
        .next { s with din := s.din.extractLsb' 32 32 ++ w, resp := some { rdata := 0#32, err := false } } ∧
      exec (.wrDinHi w) s =
        .next { s with din := w ++ s.din.extractLsb' 0 32, resp := some { rdata := 0#32, err := false } }) ∧
    (s.busy = true → ∀ i ∈ [Instr.wrKeyLo w, .wrKeyHi w, .wrDinLo w, .wrDinHi w],
      exec i s = .next { s with errBusy := true, resp := some { rdata := 0#32, err := false } })

/-- R164, R165: a write of either half of `DOUT`, from its header, completes, busy or not, and changes nothing but the
response. -/
def Obligations.DoutWritesAreIgnored : Prop :=
  ∀ (w : Word) (s : State),
    decode (.bus (.ofHeader 0xD0#8 w)) = .instr (.wrDoutLo w) ∧
    decode (.bus (.ofHeader 0xD4#8 w)) = .instr (.wrDoutHi w) ∧
    exec (.wrDoutLo w) s = .next { s with resp := some { rdata := 0x00000000#32, err := false } } ∧
    exec (.wrDoutHi w) s = .next { s with resp := some { rdata := 0x00000000#32, err := false } }

/-- R167: a write of `STATUS`, from its header, busy or not, clears exactly the bits 3:1 that are written 1. -/
def Obligations.StatusWriteClearsSelectedBits : Prop :=
  ∀ (w : Word) (s : State),
    decode (.bus (.ofHeader 0xDC#8 w)) = .instr (.wrStatus w) ∧
    exec (.wrStatus w) s =
      .next { s with
        done := if w.getLsbD 1 then false else s.done
        errCmd := if w.getLsbD 2 then false else s.errCmd
        errBusy := if w.getLsbD 3 then false else s.errBusy
        resp := some { rdata := 0x00000000#32, err := false } }

/-- R168, R107, R131: while idle, NOP changes nothing but the response, PERM starts an operation on `DIN`, ENC starts one
on `DIN ^ KEY`. -/
def Obligations.CommandsCompleteWhenIdle : Prop :=
  ∀ s : State, s.busy = false →
    exec .nop s = .next { s with resp := some { rdata := 0#32, err := false } } ∧
    exec .perm s =
      .next { s with
        h := s.din.extractLsb' 32 32
        l := s.din.extractLsb' 0 32
        i := 0#5
        mode := .perm
        busy := true
        done := false
        resp := some { rdata := 0#32, err := false } } ∧
    exec .enc s =
      .next { s with
        h := (s.din ^^^ s.key).extractLsb' 32 32
        l := (s.din ^^^ s.key).extractLsb' 0 32
        i := 0#5
        mode := .enc
        busy := true
        done := false
        resp := some { rdata := 0#32, err := false } }

/-- R166, R169, R85: while idle, a write of `CTRL` runs the command its word is, and a word that is none sets `ERR_CMD`
and changes nothing else. -/
def Obligations.CtrlWriteCompletesWhenIdle : Prop :=
  ∀ (w : Word) (s : State), s.busy = false →
    exec (.wrCtrl w) s =
      .next (
        if w = 0x00000000#32 then { s with resp := some { rdata := 0#32, err := false } }
        else if w = 0x00000001#32 then
          { s with
            h := s.din.extractLsb' 32 32
            l := s.din.extractLsb' 0 32
            i := 0#5
            mode := .perm
            busy := true
            done := false
            resp := some { rdata := 0#32, err := false } }
        else if w = 0x00000002#32 then
          { s with
            h := (s.din ^^^ s.key).extractLsb' 32 32
            l := (s.din ^^^ s.key).extractLsb' 0 32
            i := 0#5
            mode := .enc
            busy := true
            done := false
            resp := some { rdata := 0#32, err := false } }
        else { s with errCmd := true, resp := some { rdata := 0#32, err := false } })

/-- R151: while BUSY, the five guarded writes and the commands written to `CTRL` are dropped: `ERR_BUSY` is set, the
response is normal, and nothing else changes, whatever the data. -/
def Obligations.GuardedWritesAreDroppedWhileBusy : Prop :=
  ∀ (w : Word) (s : State), s.busy = true →
    ∀ i ∈ [Instr.wrKeyLo w, .wrKeyHi w, .wrDinLo w, .wrDinHi w, .wrCtrl w, .nop, .perm, .enc],
      exec i s = .next { s with errBusy := true, resp := some { rdata := 0x00000000#32, err := false } }

/-- R52, R53, R56: after an idle write of a half of `DIN`, a read of that half returns the data written, and a read of any
other register returns what it returned before. -/
def Obligations.DinReadsBackWhatWasWritten : Prop :=
  ∀ (w : Word) (s : State) (r : Reg), s.busy = false →
    ∃ t u, exec (.wrDinLo w) s = .next t ∧ exec (.wrDinHi w) s = .next u ∧
      exec r.readInstr t = .next (answer (if r = .dinLo then w else windowRead r s) t) ∧
      exec r.readInstr u = .next (answer (if r = .dinHi then w else windowRead r s) u)

/-- R57: every read, and every write but that of `CTRL`, done twice leaves what it leaves done once. -/
def Obligations.RepeatedAccessIsIdempotent : Prop :=
  ∀ (r : Reg) (w : Word) (s : State),
    (∃ t, exec r.readInstr s = .next t ∧ exec r.readInstr t = .next t) ∧
    (r ≠ .ctrl → ∃ t, exec (r.writeInstr w) s = .next t ∧ exec (r.writeInstr w) t = .next t)

/-- R57: a second PERM or ENC while the first runs starts nothing and sets `ERR_BUSY`. -/
def Obligations.SecondStartIsDropped : Prop :=
  ∀ (w : Word) (s : State), s.busy = false → (w = 1#32 ∨ w = 2#32) →
    ∃ t, exec (.wrCtrl w) s = .next t ∧ t.busy = true ∧ t.errBusy = s.errBusy ∧
      exec (.wrCtrl w) t = .next { t with errBusy := true }

/-! ## The machine's step -/

/-- R150, R58: when the next event is a request that decodes to an instruction, a step is that instruction's meaning in the
state with the event taken off the schedule; when it is a Core step or a reset, a step is that agent's action; and when no
event is left, a step is the Core's (log 1, 2). That no response stands after a Core step or a reset is the model's choice
(log 3). -/
def Obligations.StepRunsTheNextEvent : Prop :=
  ∀ (s : State),
    (∀ r rest i, s.events = .host r :: rest → decode r = .instr i → step s = exec i { s with events := rest }) ∧
    (∀ rest, s.events = .core :: rest → step s = .next (coreStep (noResponse { s with events := rest }))) ∧
    (∀ rest, s.events = .reset :: rest → step s = .next { State.reset with events := rest }) ∧
    (s.events = [] → step s = .next (coreStep (noResponse s)))

/-- R55, R201, R203 item 1: a transaction that is not a whole aligned word gets an error response and changes nothing,
busy or not. -/
def Obligations.BusErrorChangesNothing : Prop :=
  ∀ (s : State) (t : Transaction) (rest : List Event), s.events = .host (.bus t) :: rest →
    (t.size ≠ 0b10#2 ∨ t.off.toNat % 4 ≠ 0) →
    step s = .next { s with events := rest, resp := some { rdata := 0x00000000#32, err := true } }

/-- R203 items 2 and 3, R151, R169: a guarded write while BUSY sets `ERR_BUSY` only, whatever its data, and an illegal
command word while idle sets `ERR_CMD` only; both get a normal response. -/
def Obligations.ErrorEventsInOrder : Prop :=
  ∀ (s : State) (e : Event) (rest : List Event), s.events = e :: rest →
    (s.busy = true → guardedWrite e = true →
      step s = .next { s with events := rest, errBusy := true, resp := some { rdata := 0#32, err := false } }) ∧
    (s.busy = false → illegalCommandWritten e = true →
      step s = .next { s with events := rest, errCmd := true, resp := some { rdata := 0#32, err := false } })

/-- R200, R204 and file 93 ("No item of the block is stuck"): every step of every state answers a next state. -/
def Obligations.EveryStepAnswersNext : Prop := ∀ s : State, ∃ t, step s = .next t

/-- R108, R109, R110: a Core step while BUSY applies one mixing step and counts it; with `I = 31` it also writes the
whitened result, sets `DONE` and clears `BUSY`; while idle nothing changes. That the response field is empty after a Core
step is the model's choice (log 3). -/
def Obligations.CoreEventMixesOrCompletes : Prop :=
  ∀ (s : State) (rest : List Event), s.events = .core :: rest →
    step s =
      .next (
        if s.busy = false then { s with events := rest, resp := none }
        else if s.i.toNat < 31 then
          { s with
            events := rest
            resp := none
            h := (mixStep s.h s.l s.i).1
            l := (mixStep s.h s.l s.i).2
            i := BitVec.ofNat 5 (s.i.toNat + 1) }
        else
          { s with
            events := rest
            resp := none
            h := (mixStep s.h s.l 31#5).1
            l := (mixStep s.h s.l 31#5).2
            i := 0#5
            dout :=
              combine (mixStep s.h s.l 31#5).1 (mixStep s.h s.l 31#5).2 ^^^ (if s.mode = .enc then s.key else 0#64)
            busy := false
            done := true })

/-- R230, R231: a reset event, from any state, leaves every register at 0 and the block idle; the response field is the
model's own (log 3). -/
def Obligations.ResetEventClearsEverything : Prop :=
  ∀ (s : State) (rest : List Event), s.events = .reset :: rest →
    ∃ t, step s = .next t ∧ t.key = 0#64 ∧ t.din = 0#64 ∧ t.dout = 0#64 ∧ t.busy = false ∧ t.done = false ∧
      t.errCmd = false ∧ t.errBusy = false ∧ t.h = 0#32 ∧ t.l = 0#32 ∧ t.i = 0#5 ∧ t.mode = .perm ∧ t.events = rest

/-- R20, R231, R233: the state after reset, and all eight reads of it return 0. -/
def Obligations.ResetStateIsZero : Prop :=
  State.reset.key = 0#64 ∧ State.reset.din = 0#64 ∧ State.reset.dout = 0#64 ∧ State.reset.busy = false ∧
  State.reset.done = false ∧ State.reset.errCmd = false ∧ State.reset.errBusy = false ∧ State.reset.h = 0#32 ∧
  State.reset.l = 0#32 ∧ State.reset.i = 0#5 ∧ State.reset.mode = .perm ∧
  ∀ r : Reg, windowRead r State.reset = 0x00000000#32

/-! ## What every step does to each register -/

/-- R25, R26: the next value of `BUSY`: set by an accepted start, cleared by completion and by reset, else kept. -/
def Obligations.BusyNextValue : Prop :=
  ∀ (s : State) (e : Event) (rest : List Event), s.events = e :: rest →
    ∃ t, step s = .next t ∧
      t.busy =
        if e = .reset then false
        else if s.busy = false then (startRequested e).isSome
        else !(completes e s)

/-- R25, R27: the next value of `DONE`: set by completion; cleared by an accepted start, by a `STATUS` write with bit 1 set
and by reset; else kept. -/
def Obligations.DoneNextValue : Prop :=
  ∀ (s : State) (e : Event) (rest : List Event), s.events = e :: rest →
    ∃ t, step s = .next t ∧
      t.done =
        if e = .reset then false
        else if completes e s = true then true
        else if s.busy = false ∧ (startRequested e).isSome = true then false
        else
          match writeTo 0x1C#5 e with
          | some w => s.done && !w.getLsbD 1
          | none => s.done

/-- R25, R28: the next value of `ERR_CMD`: set by an illegal command word written while idle; cleared by a `STATUS` write
with bit 2 set and by reset; else kept. -/
def Obligations.ErrCmdNextValue : Prop :=
  ∀ (s : State) (e : Event) (rest : List Event), s.events = e :: rest →
    ∃ t, step s = .next t ∧
      t.errCmd =
        if e = .reset then false
        else if s.busy = false ∧ illegalCommandWritten e = true then true
        else
          match writeTo 0x1C#5 e with
          | some w => s.errCmd && !w.getLsbD 2
          | none => s.errCmd

/-- R25, R29: the next value of `ERR_BUSY`: set by a guarded write made while BUSY; cleared by a `STATUS` write with bit 3
set and by reset; else kept. -/
def Obligations.ErrBusyNextValue : Prop :=
  ∀ (s : State) (e : Event) (rest : List Event), s.events = e :: rest →
    ∃ t, step s = .next t ∧
      t.errBusy =
        if e = .reset then false
        else if s.busy = true ∧ guardedWrite e = true then true
        else
          match writeTo 0x1C#5 e with
          | some w => s.errBusy && !w.getLsbD 3
          | none => s.errBusy

/-- R21, R22, R38: `KEY` and `DIN` change only by the writes of their halves made while idle, and by reset. -/
def Obligations.OperandRegistersNextValue : Prop :=
  ∀ (s : State) (e : Event) (rest : List Event), s.events = e :: rest →
    ∃ t, step s = .next t ∧
      t.key =
        (if e = .reset then 0#64
        else if s.busy = true then s.key
        else
          match writeTo 0x00#5 e, writeTo 0x04#5 e with
          | some w, _ => s.key.extractLsb' 32 32 ++ w
          | none, some w => w ++ s.key.extractLsb' 0 32
          | none, none => s.key) ∧
      t.din =
        (if e = .reset then 0#64
        else if s.busy = true then s.din
        else
          match writeTo 0x08#5 e, writeTo 0x0C#5 e with
          | some w, _ => s.din.extractLsb' 32 32 ++ w
          | none, some w => w ++ s.din.extractLsb' 0 32
          | none, none => s.din)

/-- R23, R109: `DOUT` is written only by the completion step and by reset; an operation in progress leaves the previous
result in it. -/
def Obligations.DoutNextValue : Prop :=
  ∀ (s : State) (e : Event) (rest : List Event), s.events = e :: rest →
    ∃ t, step s = .next t ∧
      t.dout =
        if e = .reset then 0#64
        else if completes e s = true then
          combine (mixStep s.h s.l 31#5).1 (mixStep s.h s.l 31#5).2 ^^^ (if s.mode = .enc then s.key else 0#64)
        else s.dout

/-! ## Invariants -/

/-- R36, R37: every step, from every state, keeps `BUSY = 0 → I = 0` and never has `BUSY` and `DONE` both 1. -/
def Obligations.StepKeepsStatusInvariant : Prop :=
  ∀ s t : State, StatusInvariant s → step s = .next t → StatusInvariant t

/-- R36, R37 at reset. -/
def Obligations.ResetHasStatusInvariant : Prop := StatusInvariant State.reset

/-- R36, R37: every reachable state, whatever the host, the Core and reset do, has the invariant. -/
def Obligations.ReachableStatesHaveStatusInvariant : Prop :=
  ∀ (n : Nat) (es : List Event) (t : State), runSteps n (withSchedule es State.reset) = .next t → StatusInvariant t

/-- R38: a step that is no reset, made while BUSY, leaves `KEY` and `DIN` as they are. -/
def Obligations.OperandsStandWhileBusy : Prop :=
  ∀ s t : State, s.busy = true → s.events.head? ≠ some .reset → step s = .next t → t.key = s.key ∧ t.din = s.din

/-- R107, R131: an accepted start begins an operation on the operands it finds. -/
def Obligations.AcceptedStartBeginsOperation : Prop :=
  ∀ (m : Mode) (s : State) (e : Event) (rest : List Event), s.events = e :: rest → s.busy = false →
    startRequested e = some m →
    ∃ t, step s = .next t ∧ InOperation m s.key s.din t ∧ t.i = 0#5 ∧ t.done = false ∧ t.dout = s.dout ∧
      t.errCmd = s.errCmd ∧ t.errBusy = s.errBusy ∧ OperationInvariant m s.key s.din t

/-- R59, R108, R109: every step that is neither a reset nor an accepted start keeps the operation's invariant: the Core is
at mixing step `I` of it, and `DONE` shows that its result stands in `DOUT`. -/
def Obligations.StepKeepsOperationInvariant : Prop :=
  ∀ (m : Mode) (k x : Block) (s t : State), OperationInvariant m k x s → s.events.head? ≠ some .reset →
    (∀ e, s.events.head? = some e → s.busy = false → startRequested e = none) →
    step s = .next t → OperationInvariant m k x t

/-! ## Whole operations -/

/-- R31 to R33, R108, R23: after an accepted start and any events without a reset, of which `n < 32` are Core steps, the
block is BUSY, holds the halves of `n` mixing steps, and still shows the previous result. -/
def Obligations.OperationInProgressHoldsMixedHalves : Prop :=
  ∀ (m : Mode) (s : State) (e : Event) (es : List Event), s.busy = false → startRequested e = some m →
    .reset ∉ es → es.count .core < 32 →
    ∃ t, runSteps (es.length + 1) (withSchedule (e :: es) s) = .next t ∧ InOperation m s.key s.din t ∧
      t.i.toNat = es.count .core ∧ t.done = false ∧ t.dout = s.dout

/-- R111, R132: after an accepted start and no reset, the block is still BUSY before the 32nd Core step, and that step
completes the operation, whatever host transactions fall between: `DOUT` is `Permute(DIN)` or `EncryptBlock(KEY, DIN)`, `BUSY = 0` and `DONE = 1`. -/
def Obligations.OperationCompletesAtThirtySecondCoreStep : Prop :=
  ∀ (m : Mode) (s : State) (e : Event) (es : List Event), s.busy = false → startRequested e = some m →
    .reset ∉ es → es.count .core = 31 →
    ∃ u t, runSteps (es.length + 1) (withSchedule (e :: es ++ [.core]) s) = .next u ∧ u.busy = true ∧ step u = .next t ∧
      t.dout = (match m with | .perm => permute s.din | .enc => encryptBlock s.key s.din) ∧
      t.busy = false ∧ t.done = true ∧ t.i = 0#5 ∧ t.key = s.key ∧ t.din = s.din ∧ t.events = []

/-- R59, R23: from a completed operation, and through any events without a reset of which none completes an operation,
reads of `DOUT` return the completed operation's result: starts, and Core events that fall while idle, may be among them.
Fewer than 32 Core events never complete an operation. -/
def Obligations.ResultStandsUntilNextCompletion : Prop :=
  ∀ (m : Mode) (k x : Block) (s : State) (es : List Event), OperationInvariant m k x s → s.done = true →
    (es.count .core < 32 → CompletesNone es s) ∧
    (.reset ∉ es → CompletesNone es s →
      ∃ t, runSteps es.length (withSchedule es s) = .next t ∧ t.dout = operationResult m k x ∧
        exec .rdDoutLo t = .next (answer ((operationResult m k x).extractLsb' 0 32) t) ∧
        exec .rdDoutHi t = .next (answer ((operationResult m k x).extractLsb' 32 32) t))

/-- R112: two operations of one mode with equal `DIN` (and, for ENC, equal `KEY`) leave equal results, whatever the other
state and the interleavings are. -/
def Obligations.OperationResultIsDeterministic : Prop :=
  ∀ (m : Mode) (s s' : State) (e e' : Event) (es es' : List Event), s.busy = false → s'.busy = false →
    startRequested e = some m → startRequested e' = some m → .reset ∉ es → .reset ∉ es' →
    es.count .core = 31 → es'.count .core = 31 → s.din = s'.din → (m = .enc → s.key = s'.key) →
    ∃ t t', runSteps (es.length + 2) (withSchedule (e :: es ++ [.core]) s) = .next t ∧
      runSteps (es'.length + 2) (withSchedule (e' :: es' ++ [.core]) s') = .next t' ∧ t.dout = t'.dout

/-- R240: every schedule runs to its end, and 32 more steps leave the block quiescent (weak fairness: log 2). -/
def Obligations.EveryRunBecomesQuiescent : Prop :=
  ∀ s : State, ∃ t, runSteps (s.events.length + 32) s = .next t ∧ t.busy = false ∧ t.events = []

/-- R234, R236, R89: from any idle state, the four operand writes in any order, then PERM or ENC, then anything without a
reset until the 32nd Core step, leave the result of the operands given; `rd64 DOUT` then reads both halves of it. -/
def Obligations.HostProtocolComputesResult : Prop :=
  ∀ (s : State) (k p : Block) (cmd : Pseudo) (ops es : List Event), s.busy = false →
    (cmd = .perm ∨ cmd = .enc) → ops.Perm (pseudoEvents (.ldKey k) ++ pseudoEvents (.ldDin p)) →
    .reset ∉ es → es.count .core = 31 →
    ∃ t u v, runSteps (es.length + 6) (withSchedule (ops ++ pseudoEvents cmd ++ es ++ [.core] ++ pseudoEvents .rdDout) s) = .next t ∧
      t.busy = false ∧ t.done = true ∧ t.events = pseudoEvents .rdDout ∧
      step t = .next u ∧ step u = .next v ∧
      ∃ lo hi, u.resp = some { rdata := lo, err := false } ∧ v.resp = some { rdata := hi, err := false } ∧
        hi ++ lo = (if cmd = .enc then encryptBlock k p else permute p)

/-! ## What a host can learn -/

/-- R134, R10: of two states that differ only in the key, no schedule without an ENC start lets a host see any
difference: at every point of the two runs the states, the responses among them, differ in the key alone. -/
def Obligations.KeyIsInvisibleWithoutEnc : Prop :=
  ∀ (s s' : State) (n : Nat), SameButKey s s' → s.busy = false →
    (∀ e ∈ s.events, startRequested e ≠ some .enc) →
    ∃ t t', runSteps n s = .next t ∧ runSteps n s' = .next t' ∧ SameButKey t t'

/-- R134: a step from two states that differ only in the key and the working halves leaves states that differ in those and,
only when the step is a completion, in `DOUT`; the responses are equal. -/
def Obligations.KeyReachesHostOnlyThroughDout : Prop :=
  ∀ s s' : State, SameButSecrets s s' →
    ∃ t t', step s = .next t ∧ step s' = .next t' ∧ t.resp = t'.resp ∧ SameButSecrets { t with dout := t'.dout } t' ∧
      (completes (nextEvent s) s = false → t.dout = t'.dout)

/-- R31: the working halves of an idle block have no effect on any later state but themselves, and none at all once an
operation has started. -/
def Obligations.IdleWorkingHalvesAreIrrelevant : Prop :=
  ∀ (s s' : State) (n : Nat), SameButHalves s s' → s.busy = false →
    ∃ t t', runSteps n s = .next t ∧ runSteps n s' = .next t' ∧ SameButHalves t t' ∧ (t.busy = true → t = t')

/-! ## Schedules and the reference clock -/

/-- R58: running as many steps as a list has events performs exactly those events, in order, and leaves the later ones. -/
def Obligations.RunPerformsScheduleInOrder : Prop :=
  ∀ (es rest : List Event) (s : State),
    runSteps es.length (withSchedule (es ++ rest) s) = runEvents es (withSchedule rest s)

/-- R242: with the accepting `WR_CTRL` at edge `t` and no reset, after `n` further edges the Core has done `n` mixing steps;
a `STATUS` read at the edge after them sees BUSY for `n < 32`, and DONE with BUSY clear, and the result, for `n = 32`. -/
def Obligations.ReferenceTimingIsThirtyTwoEdges : Prop :=
  ∀ (m : Mode) (s : State) (c : Cycle) (cs : List Cycle), s.busy = false → c.rstN = true → c.sel = true →
    startRequested (.host (.bus c.txn)) = some m → (∀ d ∈ cs, d.rstN = true) → cs.length ≤ Config.referenceLatency →
    ∃ t, clockRun (c :: cs) s = .next t ∧
      (cs.length < Config.referenceLatency →
        InOperation m s.key s.din t ∧ t.i.toNat = cs.length ∧ t.dout = s.dout) ∧
      (cs.length = Config.referenceLatency →
        t.busy = false ∧ t.done = true ∧ t.dout = operationResult m s.key s.din) ∧
      ∀ w : Word, ∃ v, clockResponse { rstN := true, sel := true, txn := .ofHeader 0x5C#8 w } t =
          some { rdata := v, err := false } ∧
        v.getLsbD 0 = decide (cs.length < Config.referenceLatency) ∧
        v.getLsbD 1 = decide (cs.length = Config.referenceLatency)

/-- R240, R203, R9: a run of the reference clock is the interleaving that its cycles give. Edge `j` is the events `ess[j]`:
at a reset edge a reset alone; at any other edge the presented transaction, if there is one, and then one Core step exactly
when the state before the edge is BUSY (log 9). -/
def Obligations.ReferenceClockIsOneInterleaving : Prop :=
  ∀ (cs : List Cycle) (s : State), ∃ (ess : List (List Event)) (t : State),
    ess.length = cs.length ∧
    (∀ (j : Nat) (c : Cycle), cs[j]? = some c →
      ∃ u, clockRun (cs.take j) (withSchedule [] s) = .next u ∧
        ess[j]? = some (
          if c.rstN = false then [.reset]
          else (if c.sel = true then [.host (.bus c.txn)] else []) ++ (if u.busy = true then [.core] else []))) ∧
    runSteps ess.flatten.length (withSchedule ess.flatten s) = .next t ∧
    clockRun cs (withSchedule [] s) = .next t

/-- R230, R232: at an edge with `rst_n = 0` a presented transaction has no effect and gets zeros and no error, and the
block is reset in place of every other change. -/
def Obligations.ResetEdgeOverridesTransaction : Prop :=
  ∀ (s : State) (c : Cycle), c.rstN = false →
    clockEdge c s = .next { State.reset with events := s.events } ∧
    (c.sel = true → clockResponse c s = some { rdata := 0x00000000#32, err := false })

/-- R51, R88, R89: a line `wr REG` or `rd REG`, at whatever `BASE` the window stands, presents the transaction whose header
is `0xC0 + off(REG)` or `0x40 + off(REG)`. -/
def Obligations.HostLinesReachTheirRegisters : Prop :=
  ∀ (r : Reg) (imm : Word),
    lineTransaction (.wr r imm) = some (.ofHeader (0xC0#8 + r.offset.setWidth 8) imm) ∧
    lineTransaction (.rd r) = some (.ofHeader (0x40#8 + r.offset.setWidth 8) 0#32)

/-- R88: a raw line `wrx` or `rdx` presents the transaction whose header holds its size code and its offset. -/
def Obligations.RawLinesCarrySizeAndOffset : Prop :=
  ∀ (off n : Nat) (imm : Word), off < 32 → (n = 1 ∨ n = 2 ∨ n = 4) →
    let sz : BitVec 8 := if n = 1 then 0b00#8 else if n = 2 then 0b01#8 else 0b10#8
    lineTransaction (.wrx off n imm) = some (.ofHeader (0x80#8 + (sz <<< 5) + BitVec.ofNat 8 off) imm) ∧
    lineTransaction (.rdx off n) = some (.ofHeader ((sz <<< 5) + BitVec.ofNat 8 off) 0#32)

/-- R89: `wait` ends on a value of `STATUS` exactly when `DONE`, `ERR_CMD` or `ERR_BUSY` is 1 in it, and `clr` clears all
three, after which a `wait` would not end at once. -/
def Obligations.WaitEndsOnDoneOrError : Prop :=
  ∀ s : State,
    waitEnds (statusWord s) = (s.done || s.errCmd || s.errBusy) ∧
    ∃ t, runSteps 1 (withSchedule (pseudoEvents .clr) s) = .next t ∧ waitEnds (statusWord t) = false ∧ t.busy = s.busy

/-! ## The functions -/

/-- R100, R101: the table of rotation amounts, walked four times; every amount is in 1..31. -/
def Obligations.RotationScheduleCyclesTheTable : Prop :=
  (∀ j : Fin 8, rotation (BitVec.ofNat 5 j) = [1, 29, 4, 8, 17, 12, 3, 14].getD j 0) ∧
  (∀ i : BitVec 5, rotation (i + 8#5) = rotation i ∧ 1 ≤ rotation i ∧ rotation i ≤ 31)

/-- R102, R7, R8: the mixing step in arithmetic of natural numbers modulo 2^32. -/
def Obligations.MixStepInModularArithmetic : Prop :=
  ∀ (h l : Word) (i : BitVec 5),
    let h1 := (h.toNat + l.toNat) % 2 ^ 32
    let l1 := (l.toNat * 2 ^ rotation i) % 2 ^ 32 + l.toNat / 2 ^ (32 - rotation i)
    (mixStep h l i).1.toNat = h1 ∧ (mixStep h l i).2.toNat = ((l1 ^^^ h1) + i.toNat) % 2 ^ 32

/-- R105: rotation by `r` in 1..31 moves bits `31 .. 32-r` to bits `r-1 .. 0`, the others up by `r`, and loses none. -/
def Obligations.RotationMovesEveryBit : Prop :=
  ∀ (v : Word) (r k : Nat), 1 ≤ r → r ≤ 31 → k < 32 →
    (rotl32 v r).getLsbD k = (if k < r then v.getLsbD (k + 32 - r) else v.getLsbD (k - r)) ∧
      rotr32 (rotl32 v r) r = v

/-- R103: `Combine(h, l)` is `h || l`, and XOR, OR and addition of the two zero-extended halves agree. -/
def Obligations.CombineIsConcatenation : Prop :=
  ∀ h l : Word,
    combine h l = h ++ l ∧
    combine h l = (h.setWidth 64 <<< 32) ^^^ l.setWidth 64 ∧
    combine h l = (h.setWidth 64 <<< 32) ||| l.setWidth 64 ∧
    combine h l = (h.setWidth 64 <<< 32) + l.setWidth 64

/-- R106: `InvPermute` undoes `Permute` and the reverse, so `Permute` is a bijection. -/
def Obligations.PermuteIsBijective : Prop :=
  (∀ x : Block, invPermute (permute x) = x) ∧ (∀ y : Block, permute (invPermute y) = y)

/-- R133: the four laws of `EncryptBlock`. -/
def Obligations.EncryptBlockLaws : Prop :=
  (∀ p, encryptBlock 0#64 p = permute p) ∧
  (∀ k, encryptBlock k k = permute 0#64 ^^^ k ∧ encryptBlock k k = 0x9E89251A9D13B1BC#64 ^^^ k) ∧
  (∀ k p, invPermute (encryptBlock k p ^^^ k) ^^^ k = p) ∧
  (∀ k c, encryptBlock k (invPermute (c ^^^ k) ^^^ k) = c) ∧
  (∀ k p d, encryptBlock (k ^^^ d) (p ^^^ d) = permute (k ^^^ p) ^^^ k ^^^ d)

/-- R104, R130: the worked examples. -/
def Obligations.WorkedExamples : Prop :=
  permute 0x0123456789ABCDEF#64 = 0x2F77803851E59A86#64 ∧
  permute 0x0000000000000000#64 = 0x9E89251A9D13B1BC#64 ∧
  encryptBlock 0x0123456789ABCDEF#64 0x0000000000000000#64 = 0x2E54C55FD84E5769#64
end

