-- ==== Sys2Proof/Laws/State.lean ====
section
/-! SUPPORT. One lemma per field per update of the state, so that no later proof unfolds an update. -/

namespace Sys2Proof.Machine

@[simp] theorem answer_key (r : Word) (s : State) : (answer r s).key = s.key := rfl
@[simp] theorem answer_din (r : Word) (s : State) : (answer r s).din = s.din := rfl
@[simp] theorem answer_dout (r : Word) (s : State) : (answer r s).dout = s.dout := rfl
@[simp] theorem answer_busy (r : Word) (s : State) : (answer r s).busy = s.busy := rfl
@[simp] theorem answer_done (r : Word) (s : State) : (answer r s).done = s.done := rfl
@[simp] theorem answer_errCmd (r : Word) (s : State) : (answer r s).errCmd = s.errCmd := rfl
@[simp] theorem answer_errBusy (r : Word) (s : State) : (answer r s).errBusy = s.errBusy := rfl
@[simp] theorem answer_h (r : Word) (s : State) : (answer r s).h = s.h := rfl
@[simp] theorem answer_l (r : Word) (s : State) : (answer r s).l = s.l := rfl
@[simp] theorem answer_i (r : Word) (s : State) : (answer r s).i = s.i := rfl
@[simp] theorem answer_mode (r : Word) (s : State) : (answer r s).mode = s.mode := rfl
@[simp] theorem answer_resp (r : Word) (s : State) : (answer r s).resp = some { rdata := r, err := false } := rfl
@[simp] theorem answer_events (r : Word) (s : State) : (answer r s).events = s.events := rfl

@[simp] theorem raiseBusError_key (s : State) : (raiseBusError s).key = s.key := rfl
@[simp] theorem raiseBusError_din (s : State) : (raiseBusError s).din = s.din := rfl
@[simp] theorem raiseBusError_dout (s : State) : (raiseBusError s).dout = s.dout := rfl
@[simp] theorem raiseBusError_busy (s : State) : (raiseBusError s).busy = s.busy := rfl
@[simp] theorem raiseBusError_done (s : State) : (raiseBusError s).done = s.done := rfl
@[simp] theorem raiseBusError_errCmd (s : State) : (raiseBusError s).errCmd = s.errCmd := rfl
@[simp] theorem raiseBusError_errBusy (s : State) : (raiseBusError s).errBusy = s.errBusy := rfl
@[simp] theorem raiseBusError_h (s : State) : (raiseBusError s).h = s.h := rfl
@[simp] theorem raiseBusError_l (s : State) : (raiseBusError s).l = s.l := rfl
@[simp] theorem raiseBusError_i (s : State) : (raiseBusError s).i = s.i := rfl
@[simp] theorem raiseBusError_mode (s : State) : (raiseBusError s).mode = s.mode := rfl
@[simp] theorem raiseBusError_resp (s : State) : (raiseBusError s).resp = some { rdata := 0#32, err := true } := rfl
@[simp] theorem raiseBusError_events (s : State) : (raiseBusError s).events = s.events := rfl

@[simp] theorem raiseCommandError_key (s : State) : (raiseCommandError s).key = s.key := rfl
@[simp] theorem raiseCommandError_din (s : State) : (raiseCommandError s).din = s.din := rfl
@[simp] theorem raiseCommandError_dout (s : State) : (raiseCommandError s).dout = s.dout := rfl
@[simp] theorem raiseCommandError_busy (s : State) : (raiseCommandError s).busy = s.busy := rfl
@[simp] theorem raiseCommandError_done (s : State) : (raiseCommandError s).done = s.done := rfl
@[simp] theorem raiseCommandError_errCmd (s : State) : (raiseCommandError s).errCmd = true := rfl
@[simp] theorem raiseCommandError_errBusy (s : State) : (raiseCommandError s).errBusy = s.errBusy := rfl
@[simp] theorem raiseCommandError_h (s : State) : (raiseCommandError s).h = s.h := rfl
@[simp] theorem raiseCommandError_l (s : State) : (raiseCommandError s).l = s.l := rfl
@[simp] theorem raiseCommandError_i (s : State) : (raiseCommandError s).i = s.i := rfl
@[simp] theorem raiseCommandError_mode (s : State) : (raiseCommandError s).mode = s.mode := rfl
@[simp] theorem raiseCommandError_resp (s : State) : (raiseCommandError s).resp = s.resp := rfl
@[simp] theorem raiseCommandError_events (s : State) : (raiseCommandError s).events = s.events := rfl

@[simp] theorem busyDrop_key (s : State) : (busyDrop s).key = s.key := rfl
@[simp] theorem busyDrop_din (s : State) : (busyDrop s).din = s.din := rfl
@[simp] theorem busyDrop_dout (s : State) : (busyDrop s).dout = s.dout := rfl
@[simp] theorem busyDrop_busy (s : State) : (busyDrop s).busy = s.busy := rfl
@[simp] theorem busyDrop_done (s : State) : (busyDrop s).done = s.done := rfl
@[simp] theorem busyDrop_errCmd (s : State) : (busyDrop s).errCmd = s.errCmd := rfl
@[simp] theorem busyDrop_errBusy (s : State) : (busyDrop s).errBusy = true := rfl
@[simp] theorem busyDrop_h (s : State) : (busyDrop s).h = s.h := rfl
@[simp] theorem busyDrop_l (s : State) : (busyDrop s).l = s.l := rfl
@[simp] theorem busyDrop_i (s : State) : (busyDrop s).i = s.i := rfl
@[simp] theorem busyDrop_mode (s : State) : (busyDrop s).mode = s.mode := rfl
@[simp] theorem busyDrop_resp (s : State) : (busyDrop s).resp = some { rdata := 0#32, err := false } := rfl
@[simp] theorem busyDrop_events (s : State) : (busyDrop s).events = s.events := rfl

@[simp] theorem clearStatus_key (w : Word) (s : State) : (clearStatus w s).key = s.key := rfl
@[simp] theorem clearStatus_din (w : Word) (s : State) : (clearStatus w s).din = s.din := rfl
@[simp] theorem clearStatus_dout (w : Word) (s : State) : (clearStatus w s).dout = s.dout := rfl
@[simp] theorem clearStatus_busy (w : Word) (s : State) : (clearStatus w s).busy = s.busy := rfl
@[simp] theorem clearStatus_done (w : Word) (s : State) : (clearStatus w s).done = (s.done && !w.getLsbD 1) := rfl
@[simp] theorem clearStatus_errCmd (w : Word) (s : State) : (clearStatus w s).errCmd = (s.errCmd && !w.getLsbD 2) := rfl
@[simp] theorem clearStatus_errBusy (w : Word) (s : State) : (clearStatus w s).errBusy = (s.errBusy && !w.getLsbD 3) := rfl
@[simp] theorem clearStatus_h (w : Word) (s : State) : (clearStatus w s).h = s.h := rfl
@[simp] theorem clearStatus_l (w : Word) (s : State) : (clearStatus w s).l = s.l := rfl
@[simp] theorem clearStatus_i (w : Word) (s : State) : (clearStatus w s).i = s.i := rfl
@[simp] theorem clearStatus_mode (w : Word) (s : State) : (clearStatus w s).mode = s.mode := rfl
@[simp] theorem clearStatus_resp (w : Word) (s : State) : (clearStatus w s).resp = s.resp := rfl
@[simp] theorem clearStatus_events (w : Word) (s : State) : (clearStatus w s).events = s.events := rfl

@[simp] theorem start_key (m : Mode) (s : State) : (start m s).key = s.key := rfl
@[simp] theorem start_din (m : Mode) (s : State) : (start m s).din = s.din := rfl
@[simp] theorem start_dout (m : Mode) (s : State) : (start m s).dout = s.dout := rfl
@[simp] theorem start_busy (m : Mode) (s : State) : (start m s).busy = true := rfl
@[simp] theorem start_done (m : Mode) (s : State) : (start m s).done = false := rfl
@[simp] theorem start_errCmd (m : Mode) (s : State) : (start m s).errCmd = s.errCmd := rfl
@[simp] theorem start_errBusy (m : Mode) (s : State) : (start m s).errBusy = s.errBusy := rfl
@[simp] theorem start_h (m : Mode) (s : State) : (start m s).h = highHalf (s.din ^^^ effectiveKey m s.key) := rfl
@[simp] theorem start_l (m : Mode) (s : State) : (start m s).l = lowHalf (s.din ^^^ effectiveKey m s.key) := rfl
@[simp] theorem start_i (m : Mode) (s : State) : (start m s).i = 0#5 := rfl
@[simp] theorem start_mode (m : Mode) (s : State) : (start m s).mode = m := rfl
@[simp] theorem start_resp (m : Mode) (s : State) : (start m s).resp = s.resp := rfl
@[simp] theorem start_events (m : Mode) (s : State) : (start m s).events = s.events := rfl

@[simp] theorem advance_key (s : State) : (advance s).key = s.key := rfl
@[simp] theorem advance_din (s : State) : (advance s).din = s.din := rfl
@[simp] theorem advance_dout (s : State) : (advance s).dout = s.dout := rfl
@[simp] theorem advance_busy (s : State) : (advance s).busy = s.busy := rfl
@[simp] theorem advance_done (s : State) : (advance s).done = s.done := rfl
@[simp] theorem advance_errCmd (s : State) : (advance s).errCmd = s.errCmd := rfl
@[simp] theorem advance_errBusy (s : State) : (advance s).errBusy = s.errBusy := rfl
@[simp] theorem advance_h (s : State) : (advance s).h = (mixStep s.h s.l s.i).1 := rfl
@[simp] theorem advance_l (s : State) : (advance s).l = (mixStep s.h s.l s.i).2 := rfl
@[simp] theorem advance_i (s : State) : (advance s).i = s.i + 1#5 := rfl
@[simp] theorem advance_mode (s : State) : (advance s).mode = s.mode := rfl
@[simp] theorem advance_resp (s : State) : (advance s).resp = s.resp := rfl
@[simp] theorem advance_events (s : State) : (advance s).events = s.events := rfl

@[simp] theorem complete_key (s : State) : (complete s).key = s.key := rfl
@[simp] theorem complete_din (s : State) : (complete s).din = s.din := rfl
@[simp] theorem complete_dout (s : State) : (complete s).dout = combine (mixStep s.h s.l 31#5).1 (mixStep s.h s.l 31#5).2 ^^^ effectiveKey s.mode s.key := rfl
@[simp] theorem complete_busy (s : State) : (complete s).busy = false := rfl
@[simp] theorem complete_done (s : State) : (complete s).done = true := rfl
@[simp] theorem complete_errCmd (s : State) : (complete s).errCmd = s.errCmd := rfl
@[simp] theorem complete_errBusy (s : State) : (complete s).errBusy = s.errBusy := rfl
@[simp] theorem complete_h (s : State) : (complete s).h = (mixStep s.h s.l 31#5).1 := rfl
@[simp] theorem complete_l (s : State) : (complete s).l = (mixStep s.h s.l 31#5).2 := rfl
@[simp] theorem complete_i (s : State) : (complete s).i = 0#5 := rfl
@[simp] theorem complete_mode (s : State) : (complete s).mode = s.mode := rfl
@[simp] theorem complete_resp (s : State) : (complete s).resp = s.resp := rfl
@[simp] theorem complete_events (s : State) : (complete s).events = s.events := rfl

@[simp] theorem noResponse_key (s : State) : (noResponse s).key = s.key := rfl
@[simp] theorem noResponse_din (s : State) : (noResponse s).din = s.din := rfl
@[simp] theorem noResponse_dout (s : State) : (noResponse s).dout = s.dout := rfl
@[simp] theorem noResponse_busy (s : State) : (noResponse s).busy = s.busy := rfl
@[simp] theorem noResponse_done (s : State) : (noResponse s).done = s.done := rfl
@[simp] theorem noResponse_errCmd (s : State) : (noResponse s).errCmd = s.errCmd := rfl
@[simp] theorem noResponse_errBusy (s : State) : (noResponse s).errBusy = s.errBusy := rfl
@[simp] theorem noResponse_h (s : State) : (noResponse s).h = s.h := rfl
@[simp] theorem noResponse_l (s : State) : (noResponse s).l = s.l := rfl
@[simp] theorem noResponse_i (s : State) : (noResponse s).i = s.i := rfl
@[simp] theorem noResponse_mode (s : State) : (noResponse s).mode = s.mode := rfl
@[simp] theorem noResponse_resp (s : State) : (noResponse s).resp = none := rfl
@[simp] theorem noResponse_events (s : State) : (noResponse s).events = s.events := rfl

@[simp] theorem resetBlock_key (s : State) : (resetBlock s).key = 0#64 := rfl
@[simp] theorem resetBlock_din (s : State) : (resetBlock s).din = 0#64 := rfl
@[simp] theorem resetBlock_dout (s : State) : (resetBlock s).dout = 0#64 := rfl
@[simp] theorem resetBlock_busy (s : State) : (resetBlock s).busy = false := rfl
@[simp] theorem resetBlock_done (s : State) : (resetBlock s).done = false := rfl
@[simp] theorem resetBlock_errCmd (s : State) : (resetBlock s).errCmd = false := rfl
@[simp] theorem resetBlock_errBusy (s : State) : (resetBlock s).errBusy = false := rfl
@[simp] theorem resetBlock_h (s : State) : (resetBlock s).h = 0#32 := rfl
@[simp] theorem resetBlock_l (s : State) : (resetBlock s).l = 0#32 := rfl
@[simp] theorem resetBlock_i (s : State) : (resetBlock s).i = 0#5 := rfl
@[simp] theorem resetBlock_mode (s : State) : (resetBlock s).mode = .perm := rfl
@[simp] theorem resetBlock_resp (s : State) : (resetBlock s).resp = none := rfl
@[simp] theorem resetBlock_events (s : State) : (resetBlock s).events = s.events := rfl

@[simp] theorem takeEvent_key (s : State) : (takeEvent s).key = s.key := rfl
@[simp] theorem takeEvent_din (s : State) : (takeEvent s).din = s.din := rfl
@[simp] theorem takeEvent_dout (s : State) : (takeEvent s).dout = s.dout := rfl
@[simp] theorem takeEvent_busy (s : State) : (takeEvent s).busy = s.busy := rfl
@[simp] theorem takeEvent_done (s : State) : (takeEvent s).done = s.done := rfl
@[simp] theorem takeEvent_errCmd (s : State) : (takeEvent s).errCmd = s.errCmd := rfl
@[simp] theorem takeEvent_errBusy (s : State) : (takeEvent s).errBusy = s.errBusy := rfl
@[simp] theorem takeEvent_h (s : State) : (takeEvent s).h = s.h := rfl
@[simp] theorem takeEvent_l (s : State) : (takeEvent s).l = s.l := rfl
@[simp] theorem takeEvent_i (s : State) : (takeEvent s).i = s.i := rfl
@[simp] theorem takeEvent_mode (s : State) : (takeEvent s).mode = s.mode := rfl
@[simp] theorem takeEvent_resp (s : State) : (takeEvent s).resp = s.resp := rfl
@[simp] theorem takeEvent_events (s : State) : (takeEvent s).events = s.events.tail := rfl

@[simp] theorem presentNext_key (r : Request) (s : State) : (presentNext r s).key = s.key := rfl
@[simp] theorem presentNext_din (r : Request) (s : State) : (presentNext r s).din = s.din := rfl
@[simp] theorem presentNext_dout (r : Request) (s : State) : (presentNext r s).dout = s.dout := rfl
@[simp] theorem presentNext_busy (r : Request) (s : State) : (presentNext r s).busy = s.busy := rfl
@[simp] theorem presentNext_done (r : Request) (s : State) : (presentNext r s).done = s.done := rfl
@[simp] theorem presentNext_errCmd (r : Request) (s : State) : (presentNext r s).errCmd = s.errCmd := rfl
@[simp] theorem presentNext_errBusy (r : Request) (s : State) : (presentNext r s).errBusy = s.errBusy := rfl
@[simp] theorem presentNext_h (r : Request) (s : State) : (presentNext r s).h = s.h := rfl
@[simp] theorem presentNext_l (r : Request) (s : State) : (presentNext r s).l = s.l := rfl
@[simp] theorem presentNext_i (r : Request) (s : State) : (presentNext r s).i = s.i := rfl
@[simp] theorem presentNext_mode (r : Request) (s : State) : (presentNext r s).mode = s.mode := rfl
@[simp] theorem presentNext_resp (r : Request) (s : State) : (presentNext r s).resp = s.resp := rfl
@[simp] theorem presentNext_events (r : Request) (s : State) : (presentNext r s).events = .host r :: s.events := rfl

end Sys2Proof.Machine
end

