-- ==== Sys2Proof/Laws/Ops.lean ====
section
/-! SUPPORT. For each shared operation, once, everything it can do; and the inversion of `exec` and of a host's step. -/

namespace Sys2Proof.Machine

/-- Bit by bit, `hi || lo` (20_memory.md R53). -/
theorem joinHalves_getLsbD (hi lo : Word) (k : Nat) :
    (joinHalves hi lo).getLsbD k = if k < 32 then lo.getLsbD k else hi.getLsbD (k - 32) :=
  BitVec.getLsbD_append

theorem lowHalf_getLsbD (v : Block) (k : Nat) : (lowHalf v).getLsbD k = (decide (k < 32) && v.getLsbD k) := by
  simp [lowHalf]

theorem highHalf_getLsbD (v : Block) (k : Nat) :
    (highHalf v).getLsbD k = (decide (k < 32) && v.getLsbD (32 + k)) := by
  simp [highHalf]

theorem joinHalves_split (v : Block) : joinHalves (highHalf v) (lowHalf v) = v := by
  apply BitVec.eq_of_getLsbD_eq
  intro k hk
  rw [joinHalves_getLsbD, lowHalf_getLsbD, highHalf_getLsbD]
  by_cases h : k < 32
  · simp [h]
  · have h' : k - 32 < 32 := by omega
    have e : 32 + (k - 32) = k := by omega
    simp [h, h', e]

@[simp] theorem lowHalf_join (hi lo : Word) : lowHalf (joinHalves hi lo) = lo := by
  apply BitVec.eq_of_getLsbD_eq
  intro k hk
  rw [lowHalf_getLsbD, joinHalves_getLsbD]
  simp [hk]

@[simp] theorem highHalf_join (hi lo : Word) : highHalf (joinHalves hi lo) = hi := by
  apply BitVec.eq_of_getLsbD_eq
  intro k hk
  rw [highHalf_getLsbD, joinHalves_getLsbD]
  simp [hk]

/-- R151: either the write is dropped because the block is BUSY, or its effect happens. -/
theorem writeWhenIdle_cases (effect : State → State) (s : State) :
    (s.busy = true ∧ writeWhenIdle effect s = busyDrop s) ∨
      (s.busy = false ∧ writeWhenIdle effect s = answer 0#32 (effect s)) := by
  cases hb : s.busy <;> simp [writeWhenIdle, hb]

/-- R166: a command does nothing, starts one of the two operations, or sets `ERR_CMD`. -/
theorem commandEffect_cases (c : Option Command) (s : State) :
    (c = some .nop ∧ commandEffect c s = s) ∨
      (∃ m, (c = some .perm ∧ m = .perm ∨ c = some .enc ∧ m = .enc) ∧ commandEffect c s = start m s) ∨
      (c = none ∧ commandEffect c s = raiseCommandError s) := by
  rcases c with _ | _ | _ | _ <;> simp [commandEffect]

/-- R108 to R110: the Core rests, advances or completes. -/
theorem coreStep_cases (s : State) :
    (s.busy = false ∧ coreStep s = s) ∨
      (s.busy = true ∧ s.i ≠ 31#5 ∧ coreStep s = advance s) ∨
      (s.busy = true ∧ s.i = 31#5 ∧ coreStep s = complete s) := by
  cases hb : s.busy <;> by_cases hi : s.i = 31#5 <;> simp [coreStep, hb, hi]

/-- A request that is no instruction gets a bus error, or acts as an illegal command word. -/
theorem rejectRequest_cases (why : Reject) (s : State) :
    rejectRequest why s = raiseBusError s ∨
      (why = .illegalCommand ∧ s.busy = true ∧ rejectRequest why s = busyDrop s) ∨
      (why = .illegalCommand ∧ s.busy = false ∧ rejectRequest why s = answer 0#32 (raiseCommandError s)) := by
  cases why with
  | illegalCommand =>
    rcases writeWhenIdle_cases raiseCommandError s with ⟨hb, h⟩ | ⟨hb, h⟩
    · exact .inr (.inl ⟨rfl, hb, h⟩)
    · exact .inr (.inr ⟨rfl, hb, h⟩)
  | _ => exact .inl rfl

/-- Everything an instruction can do: answer a read or an ignored write, clear status bits, be dropped while BUSY, or,
while idle, replace an operand register or run a command. -/
theorem exec_cases (i : Instr) (s t : State) (h : exec i s = .next t) :
    (∃ r, t = answer r s) ∨ (∃ w, i = .wrStatus w ∧ t = answer 0#32 (clearStatus w s)) ∨
      (s.busy = true ∧ t = busyDrop s) ∨
      (s.busy = false ∧ ((∃ k, t = answer 0#32 { s with key := k }) ∨ (∃ d, t = answer 0#32 { s with din := d }) ∨
        ∃ c, t = answer 0#32 (commandEffect c s))) := by
  cases i with
  | wrKeyLo w =>
    cases h
    rcases writeWhenIdle_cases (fun u => { u with key := setLowHalf u.key w }) s with ⟨hb, h⟩ | ⟨hb, h⟩
    · exact .inr (.inr (.inl ⟨hb, h⟩))
    · exact .inr (.inr (.inr ⟨hb, .inl ⟨_, h⟩⟩))
  | wrKeyHi w =>
    cases h
    rcases writeWhenIdle_cases (fun u => { u with key := setHighHalf u.key w }) s with ⟨hb, h⟩ | ⟨hb, h⟩
    · exact .inr (.inr (.inl ⟨hb, h⟩))
    · exact .inr (.inr (.inr ⟨hb, .inl ⟨_, h⟩⟩))
  | wrDinLo w =>
    cases h
    rcases writeWhenIdle_cases (fun u => { u with din := setLowHalf u.din w }) s with ⟨hb, h⟩ | ⟨hb, h⟩
    · exact .inr (.inr (.inl ⟨hb, h⟩))
    · exact .inr (.inr (.inr ⟨hb, .inr (.inl ⟨_, h⟩)⟩))
  | wrDinHi w =>
    cases h
    rcases writeWhenIdle_cases (fun u => { u with din := setHighHalf u.din w }) s with ⟨hb, h⟩ | ⟨hb, h⟩
    · exact .inr (.inr (.inl ⟨hb, h⟩))
    · exact .inr (.inr (.inr ⟨hb, .inr (.inl ⟨_, h⟩)⟩))
  | wrCtrl w =>
    cases h
    rcases writeWhenIdle_cases (commandEffect (commandOf w)) s with ⟨hb, h⟩ | ⟨hb, h⟩
    · exact .inr (.inr (.inl ⟨hb, h⟩))
    · exact .inr (.inr (.inr ⟨hb, .inr (.inr ⟨_, h⟩)⟩))
  | nop =>
    cases h
    rcases writeWhenIdle_cases (commandEffect (some .nop)) s with ⟨hb, h⟩ | ⟨hb, h⟩
    · exact .inr (.inr (.inl ⟨hb, h⟩))
    · exact .inr (.inr (.inr ⟨hb, .inr (.inr ⟨_, h⟩)⟩))
  | perm =>
    cases h
    rcases writeWhenIdle_cases (commandEffect (some .perm)) s with ⟨hb, h⟩ | ⟨hb, h⟩
    · exact .inr (.inr (.inl ⟨hb, h⟩))
    · exact .inr (.inr (.inr ⟨hb, .inr (.inr ⟨_, h⟩)⟩))
  | enc =>
    cases h
    rcases writeWhenIdle_cases (commandEffect (some .enc)) s with ⟨hb, h⟩ | ⟨hb, h⟩
    · exact .inr (.inr (.inl ⟨hb, h⟩))
    · exact .inr (.inr (.inr ⟨hb, .inr (.inr ⟨_, h⟩)⟩))
  | wrStatus w => cases h; exact .inr (.inl ⟨w, rfl, rfl⟩)
  | _ => cases h; exact .inl ⟨_, rfl⟩

/-- What the step of the machine's events does, one equation an agent. -/
theorem eventStep_core (s : State) : eventStep .core s = .next (coreStep (noResponse s)) := rfl

theorem eventStep_reset (s : State) : eventStep .reset s = .next (resetBlock s) := rfl

theorem eventStep_instr {r : Request} {i : Instr} (hd : decode r = .instr i) (s : State) :
    eventStep (.host r) s = exec i s := by
  simp [eventStep, hostStep, hd]

theorem eventStep_rejected {r : Request} {why : Reject} (hd : decode r = .rejected why) (s : State) :
    eventStep (.host r) s = .next (rejectRequest why s) := by
  simp [eventStep, hostStep, hd]

/-- A schedule's next event acts in the state without it. -/
theorem step_cons {s : State} {e : Event} {rest : List Event} (h : s.events = e :: rest) :
    step s = eventStep e { s with events := rest } := by
  simp [step, nextEvent, takeEvent, h]

/-- With nothing scheduled the Core acts. -/
theorem step_nil {s : State} (h : s.events = []) : step s = eventStep .core s := by
  have hs : takeEvent s = s := by
    cases s
    simp only at h
    subst h
    rfl
  simp [step, nextEvent, h, hs]

end Sys2Proof.Machine
end

