-- ==== Sys2Proof/Laws/Encoding.lean ====
section
/-! SUPPORT. Small lemmas of the encodings, and a host's step in terms of the register it addresses. -/

namespace Sys2Proof

@[simp] theorem Reg.ofOffset_offset (r : Reg) : Reg.ofOffset r.offset = r := by cases r <;> rfl

@[simp] theorem admit_offset (r : Reg) : admits sizeWord r.offset = true := by cases r <;> rfl

/-- An aligned offset is the offset of the register it selects (20_memory.md R52: no holes, no aliases). -/
theorem Reg.offset_ofOffset : ∀ off : BitVec 5, off.extractLsb' 0 2 = 0b00#2 → (Reg.ofOffset off).offset = off := by
  decide

/-- What admission means of the two fields it looks at (R55). -/
theorem Transaction.admitted_iff (t : Transaction) :
    t.admitted = true ↔ t.size = sizeWord ∧ t.off.extractLsb' 0 2 = 0b00#2 := by
  simp [Transaction.admitted, admits]

/-- A transaction that is admitted addresses one register, whole (R52, R55). -/
theorem Transaction.admitted_off {t : Transaction} (h : t.admitted = true) : (Reg.ofOffset t.off).offset = t.off :=
  Reg.offset_ofOffset _ ((Transaction.admitted_iff t).1 h).2

@[simp] theorem decode_writeTransaction (r : Reg) (w : Word) :
    decode (.bus (r.writeTransaction w)) = .instr (r.writeInstr w) := by
  simp [decode, decodeTransaction, Reg.writeTransaction, Transaction.admitted]

@[simp] theorem decode_readTransaction (r : Reg) : decode (.bus r.readTransaction) = .instr r.readInstr := by
  simp [decode, decodeTransaction, Reg.readTransaction, Transaction.admitted]

namespace Machine

/-- The state that an admitted write of a register leaves (42_host_interface.md R160 to R167). -/
def registerWrite (r : Reg) (w : Word) (s : State) : State :=
  match r with
  | .keyLo => writeWhenIdle (fun u => { u with key := setLowHalf u.key w }) s
  | .keyHi => writeWhenIdle (fun u => { u with key := setHighHalf u.key w }) s
  | .dinLo => writeWhenIdle (fun u => { u with din := setLowHalf u.din w }) s
  | .dinHi => writeWhenIdle (fun u => { u with din := setHighHalf u.din w }) s
  | .doutLo => answer 0#32 s
  | .doutHi => answer 0#32 s
  | .ctrl => writeWhenIdle (commandEffect (commandOf w)) s
  | .status => answer 0#32 (clearStatus w s)

theorem exec_writeInstr (r : Reg) (w : Word) (s : State) : exec (r.writeInstr w) s = .next (registerWrite r w s) := by
  cases r <;> rfl

theorem exec_readInstr (r : Reg) (s : State) : exec r.readInstr s = .next (answer (windowRead r s) s) := by
  cases r <;> rfl

/-- A host's step, for each kind of transaction (R150). -/
theorem hostStep_notAdmitted {t : Transaction} (h : t.admitted = false) (s : State) :
    hostStep (.bus t) s = .next (raiseBusError s) := by
  simp only [hostStep, decode, decodeTransaction, h, Transaction.busError, Bool.false_eq_true, if_false]
  split
  · rfl
  · split <;> rfl

theorem hostStep_write {t : Transaction} (h : t.admitted = true) (hw : t.wr = true) (s : State) :
    hostStep (.bus t) s = .next (registerWrite (Reg.ofOffset t.off) t.wdata s) := by
  simp [hostStep, decode, decodeTransaction, h, hw, exec_writeInstr]

theorem hostStep_read {t : Transaction} (h : t.admitted = true) (hw : t.wr = false) (s : State) :
    hostStep (.bus t) s = .next (answer (windowRead (Reg.ofOffset t.off) s) s) := by
  simp [hostStep, decode, decodeTransaction, h, hw, exec_readInstr]

/-- What a legal command word does when it is presented by itself (R166). -/
theorem hostStep_legalCommand {w : Word} {c : Command} (h : commandOf w = some c) (s : State) :
    hostStep (.command w) s = .next (writeWhenIdle (commandEffect (some c)) s) := by
  cases c <;> simp [hostStep, decode, decodeCommand, h, Command.instr, exec, execNop, execPerm, execEnc]

/-- What an illegal command word does when it is presented by itself (R169). -/
theorem hostStep_illegalCommand {w : Word} (h : commandOf w = none) (s : State) :
    hostStep (.command w) s = .next (writeWhenIdle raiseCommandError s) := by
  simp [hostStep, decode, decodeCommand, h, rejectRequest]

end Machine

end Sys2Proof
end

