-- ==== Sys2Proof/Laws/PerInstr.lean ====
section
/-! SUPPORT. What holds of every instruction as syntax, one lemma per constructor. -/

namespace Sys2Proof.Laws.EncodesAdmitted

/-- Every instruction is well formed, and its encoding reaches the block as an admitted transaction (20_memory.md R55,
30_encoding.md R82, R83). -/
def Statement (i : Instr) : Prop := i.wellFormed = true ∧ (encode i).transaction.admitted = true

theorem of_read {i : Instr} (r : Reg) (hw : i.wellFormed = true) (he : encode i = .bus r.readTransaction) :
    Statement i := ⟨hw, by rw [he]; exact admit_offset r⟩

theorem of_write {i : Instr} (r : Reg) (w : Word) (hw : i.wellFormed = true)
    (he : (encode i).transaction = r.writeTransaction w) : Statement i := ⟨hw, by rw [he]; exact admit_offset r⟩

theorem rdKeyLo : Statement .rdKeyLo := of_read .keyLo rfl rfl
theorem rdKeyHi : Statement .rdKeyHi := of_read .keyHi rfl rfl
theorem rdDinLo : Statement .rdDinLo := of_read .dinLo rfl rfl
theorem rdDinHi : Statement .rdDinHi := of_read .dinHi rfl rfl
theorem rdDoutLo : Statement .rdDoutLo := of_read .doutLo rfl rfl
theorem rdDoutHi : Statement .rdDoutHi := of_read .doutHi rfl rfl
theorem rdCtrl : Statement .rdCtrl := of_read .ctrl rfl rfl
theorem rdStatus : Statement .rdStatus := of_read .status rfl rfl
theorem wrKeyLo (wdata : Word) : Statement (.wrKeyLo wdata) := of_write .keyLo wdata rfl rfl
theorem wrKeyHi (wdata : Word) : Statement (.wrKeyHi wdata) := of_write .keyHi wdata rfl rfl
theorem wrDinLo (wdata : Word) : Statement (.wrDinLo wdata) := of_write .dinLo wdata rfl rfl
theorem wrDinHi (wdata : Word) : Statement (.wrDinHi wdata) := of_write .dinHi wdata rfl rfl
theorem wrDoutLo (wdata : Word) : Statement (.wrDoutLo wdata) := of_write .doutLo wdata rfl rfl
theorem wrDoutHi (wdata : Word) : Statement (.wrDoutHi wdata) := of_write .doutHi wdata rfl rfl
theorem wrCtrl (wdata : Word) : Statement (.wrCtrl wdata) := of_write .ctrl wdata rfl rfl
theorem wrStatus (wdata : Word) : Statement (.wrStatus wdata) := of_write .status wdata rfl rfl
theorem nop : Statement .nop := of_write .ctrl Command.nop.word rfl rfl
theorem perm : Statement .perm := of_write .ctrl Command.perm.word rfl rfl
theorem enc : Statement .enc := of_write .ctrl Command.enc.word rfl rfl

end Sys2Proof.Laws.EncodesAdmitted
end

