-- ==== Sys2Proof/Laws/Runs.lean ====
section
/-! SUPPORT. Runs of several steps. -/

namespace Sys2Proof.Machine

theorem runSteps_succ_of_next {s t : State} (n : Nat) (h : step s = .next t) : runSteps (n + 1) s = runSteps n t := by
  simp only [runSteps, h]

/-- One step and then the rest, for any core. -/
theorem coreRun_succ (M : Host.Core) (n : Nat) (s : M.State) :
    (∀ t, M.step s = .next t → M.run (n + 1) s = M.run n t) ∧
      (∀ why, M.step s = .fault why → M.run (n + 1) s = .fault why) ∧
      (∀ why, M.step s = .refused why → M.run (n + 1) s = .refused why) := by
  refine ⟨fun t h => ?_, fun why h => ?_, fun why h => ?_⟩ <;> rw [Host.Core.run.eq_def] <;> simp only [h]

/-- `runSteps` is the host interface's run of the core. -/
theorem runSteps_eq_core_run (n : Nat) (s : State) : runSteps n s = Host.Core.run Sys2Proof.core n s := by
  induction n generalizing s with
  | zero => rfl
  | succ n ih =>
    have hc := coreRun_succ Sys2Proof.core n s
    cases h : step s with
    | next t => exact (runSteps_succ_of_next n h).trans ((ih t).trans (hc.1 t h).symm)
    | fault why =>
      refine Eq.trans ?_ (hc.2.1 why h).symm
      simp only [runSteps, h]
      rfl
    | refused why =>
      refine Eq.trans ?_ (hc.2.2 why h).symm
      simp only [runSteps, h]
      rfl

/-- A run that reaches `t` in `n` steps goes on from `t`. -/
theorem runSteps_add (n m : Nat) {s t : State} (h : runSteps n s = .next t) : runSteps (n + m) s = runSteps m t := by
  induction n generalizing s with
  | zero =>
    cases h
    rw [Nat.zero_add]
  | succ n ih =>
    cases hs : step s with
    | next u =>
      rw [runSteps_succ_of_next n hs] at h
      rw [Nat.add_right_comm, runSteps_succ_of_next _ hs]
      exact ih h
    | fault why => simp only [runSteps, hs] at h; cases h
    | refused why => simp only [runSteps, hs] at h; cases h

end Sys2Proof.Machine
end

