-- ==== Sys2Proof/Tests/Slice0.lean ====
section
/-! SUPPORT. The model's own tests. Expected values are those of spec/95_test_vectors.md (the vector's name stands at each
test) or are written out from the rule named. The last part shows, for every statement with hypotheses, a case that
meets them. -/

namespace Sys2Proof.Tests

open Sys2Proof.Machine

/-- The next state of an outcome, if it is one. -/
def nextOf (o : Host.Outcome State Fault Refusal) : Option State :=
  match o with
  | .next s => some s
  | .fault _ => none
  | .refused _ => none

/-- A normal response. -/
def ok (rdata : Word) : Option Response := some { rdata := rdata, err := false }

/-- An error response. -/
def busErr : Option Response := some { rdata := 0x00000000#32, err := true }

/-- A state with operands, as 95_test_vectors.md section 2.7 starts from. -/
def loaded : State := { State.reset with key := 0x0123456789ABCDEF#64, din := 0x0000000080000000#64 }

/-- The "busy" state of 95_test_vectors.md section 2.8: a PERM after two Core steps. -/
def busyState : State :=
  { State.reset with
    din := 0x0123456789ABCDEF#64, busy := true, i := 2#5, h := 0x24679BDF#32, l := 0x17548ACF#32 }

/-- The state before the completion step of V-K3. -/
def lastStep : State :=
  { loaded with busy := true, i := 31#5, h := 0xCA39D808#32, l := 0x9977955E#32, mode := .enc }

/-- A write of `CTRL` as an event, its header written out bit by bit. -/
def ctrlWrite (w : Word) : Event := .host (.bus (.ofHeader 0b11011000#8 w))

/-- One event in a state, and its result. -/
def after (e : Event) (s : State) : Option State := nextOf (step (withSchedule [e] s))

/-- A transaction, given by its header and write data, in a state. -/
def bus (header : BitVec 8) (w : Word) (s : State) : Option State := after (.host (.bus (.ofHeader header w))) s

/-! ## Well-formedness and decoding -/

theorem test_wellFormed_offset_outside_window_refused : HostLine.wellFormed (.wrx 32 4 0#32) = false := by decide
theorem test_wellFormed_three_byte_access_refused : HostLine.wellFormed (.rdx 0 3) = false := by decide
theorem test_wellFormed_last_byte_accepted : HostLine.wellFormed (.rdx 31 1) = true := by decide
theorem test_wellFormed_instruction : Instr.wellFormed (.wrCtrl 0xFFFFFFFF#32) = true := by decide

theorem test_sizeCode : [1, 2, 4].map sizeCode = [some 0b00#2, some 0b01#2, some 0b10#2] ∧ sizeCode 3 = none := by decide

/-- R82: the header of each read, bit by bit. -/
theorem test_decode_reads :
    [0b01000000#8, 0b01000100#8, 0b01001000#8, 0b01001100#8, 0b01010000#8, 0b01010100#8, 0b01011000#8, 0b01011100#8].map
      (fun h => decode (.bus (.ofHeader h 0#32))) =
    [.instr .rdKeyLo, .instr .rdKeyHi, .instr .rdDinLo, .instr .rdDinHi, .instr .rdDoutLo, .instr .rdDoutHi,
      .instr .rdCtrl, .instr .rdStatus] := by decide

/-- R82: the header of each write, bit by bit. -/
theorem test_decode_writes :
    [0b11000000#8, 0b11000100#8, 0b11001000#8, 0b11001100#8, 0b11010000#8, 0b11010100#8, 0b11011000#8, 0b11011100#8].map
      (fun h => decode (.bus (.ofHeader h 0x89ABCDEF#32))) =
    [.instr (.wrKeyLo 0x89ABCDEF#32), .instr (.wrKeyHi 0x89ABCDEF#32), .instr (.wrDinLo 0x89ABCDEF#32),
      .instr (.wrDinHi 0x89ABCDEF#32), .instr (.wrDoutLo 0x89ABCDEF#32), .instr (.wrDoutHi 0x89ABCDEF#32),
      .instr (.wrCtrl 0x89ABCDEF#32), .instr (.wrStatus 0x89ABCDEF#32)] := by decide

/-- R84: the command words, bit by bit. -/
theorem test_decode_commands :
    decode (.command 0b00000000000000000000000000000000#32) = .instr .nop ∧
    decode (.command 0b00000000000000000000000000000001#32) = .instr .perm ∧
    decode (.command 0b00000000000000000000000000000010#32) = .instr .enc := by decide

/-- R82, R85, R90: what is no instruction is refused by name (the headers of V-B2 to V-B7, the words of V-B11 to V-B13). -/
theorem test_decode_rejects :
    [0x98#8, 0x3C#8, 0x5E#8, 0xD9#8, 0xF8#8, 0x7C#8].map (fun h => decode (.bus (.ofHeader h 1#32))) =
      [.rejected .subWord, .rejected .subWord, .rejected .misaligned, .rejected .misaligned, .rejected .reservedSize,
        .rejected .reservedSize] ∧
    [0x00000003#32, 0x80000001#32, 0xFFFFFFFF#32].map (fun w => decode (.command w)) =
      [.rejected .illegalCommand, .rejected .illegalCommand, .rejected .illegalCommand] := by decide

/-- R90: 240 of the 256 headers are bus errors. -/
theorem test_decode_headers_count :
    (((List.range 256).map fun n => (decodeTableWord 8 n).isSome).count true) = 16 := by decide +kernel

/-- R82, R84: the encoder writes the same bits. -/
theorem test_encode_words :
    (encode .rdKeyLo).packed = 0b01000000 ∧ (encode .rdStatus).packed = 0b01011100 ∧
    (encode (.wrDinHi 0x01234567#32)).packed = 0x01234567CC ∧ (encode .enc).packed = 2 := by decide

/-- The numbering of the opcode table: a header without write data, with write data, and a command word. -/
theorem test_table_words :
    decodeTableWord 8 0xD8 = some (.wrCtrl 0#32) ∧ decodeTableWord 40 0x00000001D8 = some (.wrCtrl 1#32) ∧
    decodeTableWord 32 2 = some .enc ∧ decodeTableWord 8 0x98 = none ∧ decodeTableWord 16 0xD8 = none := by decide

/-- The first step after reset runs the word presented. -/
theorem test_fetch_runs_the_word :
    nextOf (step (State.reset.withFetchWord 40 0x89ABCDEFC0)) = nextOf (exec (.wrKeyLo 0x89ABCDEF#32) State.reset) ∧
    nextOf (step (State.reset.withFetchWord 32 1)) = nextOf (exec .perm State.reset) ∧
    nextOf (step (State.reset.withFetchWord 8 0x5C)) = nextOf (exec .rdStatus State.reset) := by decide

/-! ## Functions -/

/-- V-S1 to V-S11. -/
theorem test_mixStep_vectors :
    mixStep 0x00000000#32 0x00000000#32 0#5 = (0x00000000#32, 0x00000000#32) ∧
    mixStep 0xFFFFFFFF#32 0x00000001#32 0#5 = (0x00000000#32, 0x00000002#32) ∧
    mixStep 0x00000000#32 0x80000000#32 0#5 = (0x80000000#32, 0x80000001#32) ∧
    mixStep 0x12345678#32 0xFFFFFFFF#32 31#5 = (0x12345677#32, 0xEDCBA9A7#32) ∧
    mixStep 0x00000000#32 0x00000001#32 1#5 = (0x00000001#32, 0x20000002#32) ∧
    mixStep 0xDEADBEEF#32 0xCAFEBABE#32 5#5 = (0xA9AC79AD#32, 0x42079507#32) ∧
    mixStep 0x00000000#32 0x00000010#32 31#5 = (0x00000010#32, 0x0004002F#32) ∧
    mixStep 0xFFFFFFFF#32 0xFFFFFFFF#32 7#5 = (0xFFFFFFFE#32, 0x00000008#32) ∧
    mixStep 0x00000001#32 0xFFFFFFFF#32 2#5 = (0x00000000#32, 0x00000001#32) ∧
    mixStep 0x80000000#32 0x80000000#32 4#5 = (0x00000000#32, 0x00010004#32) ∧
    mixStep 0xFFFFFFF0#32 0x00000000#32 31#5 = (0xFFFFFFF0#32, 0x0000000F#32) := by decide +kernel

/-- V-P2, V-P3, V-P6, V-P8. -/
theorem test_permute_vectors :
    permute 0x0000000000000001#64 = 0x367935F6C7745CB4#64 ∧ permute 0xFFFFFFFFFFFFFFFF#64 = 0xF1B3CC00F060E8CA#64 ∧
    permute 0x0000000080000000#64 = 0xCADAFF447E400147#64 ∧ permute 0xFEDCBA9876543210#64 = 0x7F5AC0BBB52307F1#64 := by
  decide +kernel

/-- Rows 15, 23 and 30 of V-T1. -/
theorem test_trace_rows :
    mixSteps 16 (0#32, 0#32) = (0xA77F0A91#32, 0x79A7AAD1#32) ∧ mixSteps 24 (0#32, 0#32) = (0x4C81A852#32, 0xFE5443FA#32) ∧
    mixSteps 31 (0#32, 0#32) = (0x4C6D16B0#32, 0x521C0E6A#32) := by decide +kernel

/-- V-C2, V-I3, V-I4, V-E7, V-E10. -/
theorem test_combine_inverse_cipher_vectors :
    combine 0xF1B3CC00#32 0xF060E8CA#32 = 0xF1B3CC00F060E8CA#64 ∧
    invPermute 0x0000000000000000#64 = 0xCC4DEF72FA8710A2#64 ∧ invPermute 0xFFFFFFFFFFFFFFFF#64 = 0x289F08CD9FFE4EF8#64 ∧
    encryptBlock 0x0123456789ABCDEF#64 0x0000000080000000#64 = 0x629228010F4D06B5#64 ∧
    encryptBlock 0xFEDCBA9876543210#64 0x0123456789ABCDEF#64 = 0x0F6F76988634DADA#64 := by decide +kernel

/-! ## One step of each instruction and agent -/

/-- V-B8: the key reads as 0. -/
theorem test_rd_key : bus 0x40#8 0#32 loaded = some { loaded with resp := ok 0#32 } ∧
    bus 0x44#8 0#32 loaded = some { loaded with resp := ok 0#32 } := by decide

/-- V-B9, V-B25: also while BUSY. -/
theorem test_rd_din : bus 0x48#8 0#32 busyState = some { busyState with resp := ok 0x89ABCDEF#32 } ∧
    bus 0x4C#8 0#32 busyState = some { busyState with resp := ok 0x01234567#32 } := by decide

/-- The examples of R156 and R157. -/
theorem test_rd_dout :
    (bus 0x50#8 0#32 { busyState with dout := 0x2F77803851E59A86#64 }).bind State.resp = ok 0x51E59A86#32 ∧
    (bus 0x54#8 0#32 { busyState with dout := 0x2F77803851E59A86#64 }).bind State.resp = ok 0x2F778038#32 := by decide

/-- V-B24, V-B1, and R25's bit order (V-B19's word). -/
theorem test_rd_ctrl_status : bus 0x58#8 0#32 busyState = some { busyState with resp := ok 0#32 } ∧
    bus 0x5C#8 0#32 State.reset = some { State.reset with resp := ok 0#32 } ∧
    (bus 0x5C#8 0#32 { busyState with errBusy := true }).bind State.resp = ok 0x00000009#32 ∧
    (bus 0x5C#8 0#32 { State.reset with done := true, errCmd := true }).bind State.resp = ok 0x00000006#32 := by decide

/-- The examples of R160 and R161. -/
theorem test_wr_key :
    bus 0xC0#8 0x89ABCDEF#32 State.reset = some { State.reset with key := 0x0000000089ABCDEF#64, resp := ok 0#32 } ∧
    bus 0xC4#8 0x01234567#32 { State.reset with key := 0x0000000089ABCDEF#64 } =
      some { State.reset with key := 0x0123456789ABCDEF#64, resp := ok 0#32 } := by decide

/-- The examples of R162 and R163. -/
theorem test_wr_din :
    bus 0xC8#8 0x80000000#32 State.reset = some { State.reset with din := 0x0000000080000000#64, resp := ok 0#32 } ∧
    bus 0xCC#8 0xFFFFFFFF#32 { State.reset with din := 0x0000000080000000#64 } =
      some { State.reset with din := 0xFFFFFFFF80000000#64, resp := ok 0#32 } := by decide

/-- V-B15, V-B17: dropped while BUSY; a dropped illegal word sets `ERR_BUSY` only. -/
theorem test_busy_drop : bus 0xC0#8 0x00000005#32 busyState = some { busyState with errBusy := true, resp := ok 0#32 } ∧
    bus 0xD8#8 0x00000003#32 busyState = some { busyState with errBusy := true, resp := ok 0#32 } := by decide

/-- V-B10 and the example of R165. -/
theorem test_wr_dout :
    bus 0xD0#8 0xFFFFFFFF#32 { State.reset with dout := 0x2F77803851E59A86#64 } =
      some { State.reset with dout := 0x2F77803851E59A86#64, resp := ok 0#32 } ∧
    bus 0xD4#8 0x12345678#32 { busyState with dout := 0x2F77803851E59A86#64 } =
      some { busyState with dout := 0x2F77803851E59A86#64, resp := ok 0#32 } := by decide

/-- V-K1 and V-K4: the two starts, through `CTRL`. -/
theorem test_wr_ctrl_starts :
    bus 0xD8#8 0x00000002#32 loaded =
      some { loaded with h := 0x01234567#32, l := 0x09ABCDEF#32, mode := .enc, busy := true, resp := ok 0#32 } ∧
    bus 0xD8#8 0x00000001#32 loaded =
      some { loaded with h := 0x00000000#32, l := 0x80000000#32, busy := true, resp := ok 0#32 } := by decide

/-- V-B11, V-B12. -/
theorem test_wr_ctrl_illegal :
    bus 0xD8#8 0x00000003#32 State.reset = some { State.reset with errCmd := true, resp := ok 0#32 } ∧
    bus 0xD8#8 0x80000001#32 State.reset = some { State.reset with errCmd := true, resp := ok 0#32 } := by decide

/-- V-B19, V-B20. -/
theorem test_wr_status :
    bus 0xDC#8 0x00000004#32 { State.reset with done := true, errCmd := true, errBusy := true } =
      some { State.reset with done := true, errBusy := true, resp := ok 0#32 } ∧
    bus 0xDC#8 0x0000000F#32 busyState = some { busyState with resp := ok 0#32 } := by decide

/-- V-B14, V-K5: a command word presented by itself. -/
theorem test_commands :
    after (.host (.command 0#32)) { State.reset with done := true } =
      some { State.reset with done := true, resp := ok 0#32 } ∧
    (after (.host (.command 1#32)) { State.reset with done := true, dout := 0x2F77803851E59A86#64 }).map
      (fun t => (statusWord t, t.dout)) = some (0x00000001#32, 0x2F77803851E59A86#64) ∧
    (after (.host (.command 2#32)) loaded).map (fun t => (t.h, t.l, t.mode)) =
      some (0x01234567#32, 0x09ABCDEF#32, .enc) := by decide

/-- V-B5, V-B18: a bus error, idle and busy. -/
theorem test_bus_error : bus 0xD9#8 0x00000001#32 State.reset = some { State.reset with resp := busErr } ∧
    bus 0x98#8 0x00000003#32 busyState = some { busyState with resp := busErr } := by decide

/-- V-K2, V-K3, V-K6. -/
theorem test_core_steps :
    after .core { loaded with h := 0x01234567#32, l := 0x09ABCDEF#32, mode := .enc, busy := true } =
      some { loaded with h := 0x0ACF1356#32, l := 0x19988888#32, i := 1#5, mode := .enc, busy := true } ∧
    after .core lastStep =
      some { loaded with
        h := 0x63B16D66#32, l := 0x86E6CB5A#32, mode := .enc, dout := 0x629228010F4D06B5#64, done := true } ∧
    after .core loaded = some loaded := by decide +kernel

/-- V-R1: a reset in the middle of an operation. -/
theorem test_reset_aborts :
    after .reset { busyState with key := 5#64, din := 7#64, i := 10#5, h := 0x91E70179#32, l := 0x04501745#32, mode := .enc } =
      some State.reset := by decide

/-- V-J1, its last edges: BUSY is still seen at edge `t + 32`, and a transaction acts before the Core in its cycle. -/
theorem test_clock_completion_edge :
    let c : Cycle := { rstN := true, sel := true, txn := .ofHeader 0x5C#8 0#32 }
    clockResponse c lastStep = ok 0x00000001#32 ∧
      ((nextOf (clockEdge c lastStep)).bind fun t => clockResponse c t) = ok 0x00000002#32 := by decide +kernel

/-! ## A case that meets the hypotheses of each statement -/

theorem test_witness_commandWords : (3#32 : Word) ≠ 0#32 ∧ (3#32 : Word) ≠ 1#32 ∧ (3#32 : Word) ≠ 2#32 ∧
    (0x80000001#32 : Word) ≠ 0#32 ∧ (0x80000001#32 : Word) ≠ 1#32 ∧ (0x80000001#32 : Word) ≠ 2#32 := by decide

theorem test_witness_decodedTransaction_read :
    decode (.bus { wr := false, size := 0b10#2, off := 0x1C#5, wdata := 7#32 }) = .instr .rdStatus := by decide

theorem test_witness_decodedTransaction_write :
    decode (.bus { wr := true, size := 0b10#2, off := 0x1C#5, wdata := 7#32 }) = .instr (.wrStatus 7#32) := by decide

theorem test_witness_idle : loaded.busy = false := rfl
theorem test_witness_busy : busyState.busy = true := rfl
theorem test_witness_not_ctrl : Reg.dinLo ≠ .ctrl := by decide

/-- Both starts of `SecondStartIsDropped`. -/
theorem test_witness_second_start : State.reset.busy = false ∧ ((1#32 : Word) = 1#32 ∨ (1#32 : Word) = 2#32) ∧
    ((2#32 : Word) = 1#32 ∨ (2#32 : Word) = 2#32) := by decide

/-- The four clauses of `StepRunsTheNextEvent`. -/
theorem test_witness_next_event :
    (withSchedule [ctrlWrite 1#32] loaded).events = .host (.bus (.ofHeader 0b11011000#8 1#32)) :: [] ∧
    decode (.bus (.ofHeader 0b11011000#8 1#32)) = .instr (.wrCtrl 1#32) ∧
    (withSchedule [.core] loaded).events = .core :: [] ∧ (withSchedule [.reset] loaded).events = .reset :: [] ∧
    loaded.events = [] := by decide

/-- `BusErrorChangesNothing`: a size of 2 bytes, and a misaligned word, while BUSY. -/
theorem test_witness_bus_error :
    (withSchedule [.host (.bus (.ofHeader 0x3C#8 0#32))] busyState).events =
      .host (.bus (.ofHeader 0x3C#8 0#32)) :: [] ∧ (Transaction.ofHeader 0x3C#8 0#32).size ≠ 0b10#2 ∧
    (withSchedule [.host (.bus (.ofHeader 0x5F#8 0#32))] busyState).events =
      .host (.bus (.ofHeader 0x5F#8 0#32)) :: [] ∧ (Transaction.ofHeader 0x5F#8 0#32).off.toNat % 4 ≠ 0 := by decide

/-- `ErrorEventsInOrder`: an illegal word while BUSY, and while idle. -/
theorem test_witness_error_events :
    (withSchedule [ctrlWrite 3#32] busyState).events = ctrlWrite 3#32 :: [] ∧ busyState.busy = true ∧
      guardedWrite (ctrlWrite 3#32) = true ∧
    (withSchedule [ctrlWrite 3#32] loaded).events = ctrlWrite 3#32 :: [] ∧ loaded.busy = false ∧
      illegalCommandWritten (ctrlWrite 3#32) = true := by decide

/-- `CoreEventMixesOrCompletes`: idle, `I = 30` and `I = 31`. -/
theorem test_witness_core_event :
    (withSchedule [.core] loaded).events = .core :: [] ∧ loaded.busy = false ∧
    (withSchedule [.core] { lastStep with i := 30#5 }).events = .core :: [] ∧ ({ lastStep with i := 30#5 }).i.toNat < 31 ∧
    (withSchedule [.core] lastStep).events = .core :: [] ∧ lastStep.busy = true ∧ ¬ lastStep.i.toNat < 31 := by decide

theorem test_witness_reset_event : (withSchedule [.reset] busyState).events = .reset :: [] := rfl

/-- The statements of the next value of a register: an event of each kind that the cases tell apart. -/
theorem test_witness_next_values :
    (withSchedule [.reset] busyState).events = .reset :: [] ∧
    (withSchedule [ctrlWrite 2#32] loaded).events = ctrlWrite 2#32 :: [] ∧ startRequested (ctrlWrite 2#32) = some .enc ∧
    (withSchedule [.core] lastStep).events = .core :: [] ∧ completes .core lastStep = true ∧
    illegalCommandWritten (ctrlWrite 0xFFFFFFFF#32) = true ∧
    writeTo 0x1C#5 (.host (.bus (.ofHeader 0b11011100#8 8#32))) = some 8#32 ∧
    writeTo 0x04#5 (.host (.bus (.ofHeader 0b11000100#8 9#32))) = some 9#32 ∧
    writeTo 0x04#5 (.host (.bus (.ofHeader 0b01000100#8 9#32))) = none ∧
    writeTo 0x18#5 (.host (.command 1#32)) = some 1#32 := by decide

/-- The status invariant and a step from a state that has it. -/
theorem test_witness_status_invariant : StatusInvariant (withSchedule [ctrlWrite 1#32] loaded) ∧
    (nextOf (step (withSchedule [ctrlWrite 1#32] loaded))).isSome = true :=
  ⟨⟨fun _ => rfl, by decide⟩, by decide⟩

theorem test_witness_run_from_reset : (nextOf (runSteps 2 (withSchedule [ctrlWrite 1#32, .core] State.reset))).isSome = true := by
  decide

/-- `OperandsStandWhileBusy`: a dropped write of an operand. -/
theorem test_witness_operands_stand :
    let s := withSchedule [.host (.bus (.ofHeader 0b11001000#8 1#32))] busyState
    s.busy = true ∧ s.events.head? ≠ some .reset ∧ (nextOf (step s)).isSome = true := by decide

/-- `AcceptedStartBeginsOperation`, for both operations. -/
theorem test_witness_accepted_start :
    (withSchedule [ctrlWrite 1#32] loaded).busy = false ∧ startRequested (ctrlWrite 1#32) = some .perm ∧
    startRequested (ctrlWrite 2#32) = some .enc ∧ startRequested (.host (.command 2#32)) = some .enc := by decide

/-- The operation's invariant just after a start, at the last Core step, and after completion (V-K1, V-K3). -/
theorem test_witness_operation_invariant :
    OperationInvariant .enc loaded.key loaded.din
      (withSchedule [.core] { loaded with h := 0x01234567#32, l := 0x09ABCDEF#32, mode := .enc, busy := true }) ∧
    OperationInvariant .enc loaded.key loaded.din (withSchedule [.core] lastStep) ∧
    OperationInvariant .enc loaded.key loaded.din
      (withSchedule [ctrlWrite 0#32] { loaded with done := true, dout := 0x629228010F4D06B5#64 }) := by
  refine ⟨⟨fun _ => ⟨rfl, rfl, rfl, rfl, ?_⟩, fun h => absurd h (by decide)⟩,
    ⟨fun _ => ⟨rfl, rfl, rfl, rfl, ?_⟩, fun h => absurd h (by decide)⟩, ⟨fun h => absurd h (by decide), fun _ => ⟨rfl, ?_⟩⟩⟩ <;> decide +kernel

/-- `StepKeepsOperationInvariant`: its conditions on the next event, busy and idle. -/
theorem test_witness_kept_operation :
    (withSchedule [.core] lastStep).events.head? ≠ some .reset ∧ (withSchedule [.core] lastStep).busy = true ∧
    (withSchedule [ctrlWrite 0#32] loaded).events.head? = some (ctrlWrite 0#32) ∧
    (withSchedule [ctrlWrite 0#32] loaded).busy = false ∧ startRequested (ctrlWrite 0#32) = none := by decide

/-- Whole operations: a schedule with writes, reads and bus errors between the Core steps, at the boundary of 31 steps. -/
def mixedSchedule : List Event :=
  [.core, .host (.bus (.ofHeader 0b11000000#8 5#32)), .host (.bus (.ofHeader 0x98#8 5#32)),
    .host (.bus (.ofHeader 0x50#8 0#32)), ctrlWrite 1#32] ++ List.replicate 30 .core

theorem test_witness_whole_operation : loaded.busy = false ∧ startRequested (ctrlWrite 2#32) = some .enc ∧
    .reset ∉ mixedSchedule ∧ mixedSchedule.count .core = 31 ∧ mixedSchedule.count .core < 32 := by decide

/-- The state after V-K3: a completed ENC. -/
def finished : State := { loaded with done := true, dout := 0x629228010F4D06B5#64 }

/-- Forty Core events that fall while idle, and then a start and 31 of its Core steps. -/
def noCompletion : List Event := List.replicate 40 .core ++ ctrlWrite 1#32 :: List.replicate 31 .core

/-- `ResultStandsUntilNextCompletion`: a completed operation, and fewer than 32 Core events. -/
theorem test_witness_result_stands :
    OperationInvariant .enc loaded.key loaded.din finished ∧ finished.done = true ∧
      (ctrlWrite 1#32 :: List.replicate 31 Event.core).count .core < 32 :=
  ⟨⟨fun h => absurd h (by decide), fun _ => ⟨rfl, by decide +kernel⟩⟩, rfl, by decide⟩

/-- Its second clause: 71 Core events of which none completes. -/
theorem test_witness_completes_none : .reset ∉ noCompletion ∧ CompletesNone noCompletion finished := by
  refine ⟨by decide, fun n u hn hu => ?_⟩
  have check : ∀ n < noCompletion.length,
      (nextOf (runSteps n (withSchedule noCompletion finished))).all (fun u => !completes (nextEvent u) u) = true := by
    decide +kernel
  have h := check n hn
  rw [hu] at h
  simpa [nextOf] using h

/-- `ReferenceClockIsOneInterleaving`: the edges of an idle start, of a read while BUSY, and of a reset. -/
theorem test_witness_clock_edges :
    let start : Cycle := { rstN := true, sel := true, txn := .ofHeader 0b11011000#8 1#32 }
    let read : Cycle := { rstN := true, sel := true, txn := .ofHeader 0b01011100#8 0#32 }
    let cs := [start, read, { read with rstN := false }]
    cs[0]? = some start ∧ cs[1]? = some read ∧ cs[2]? = some { read with rstN := false } ∧
      (nextOf (clockRun (cs.take 0) loaded)).map State.busy = some false ∧
      (nextOf (clockRun (cs.take 1) loaded)).map (fun t => (t.busy, t.i)) = some (true, 0#5) ∧
      (nextOf (clockRun (cs.take 2) loaded)).map (fun t => (t.busy, t.i)) = some (true, 1#5) ∧
      nextOf (clockRun cs loaded) = some State.reset := by decide

/-- `OperationResultIsDeterministic`: two ENC operations from different states, under different interleavings. -/
theorem test_witness_two_operations :
    let s' := { loaded with dout := 9#64, errCmd := true, h := 3#32 }
    loaded.busy = false ∧ s'.busy = false ∧ startRequested (ctrlWrite 2#32) = some .enc ∧
    startRequested (.host (.command 2#32)) = some .enc ∧ .reset ∉ List.replicate 31 Event.core ∧
    (List.replicate 31 Event.core).count .core = 31 ∧ loaded.din = s'.din ∧ (Mode.enc = .enc → loaded.key = s'.key) := by
  decide

/-- `HostProtocolComputesResult`: the operand writes with the pairs swapped. -/
theorem test_witness_host_protocol (k p : Block) : loaded.busy = false ∧ (Pseudo.enc = .perm ∨ Pseudo.enc = .enc) ∧
    (pseudoEvents (.ldDin p) ++ pseudoEvents (.ldKey k)).Perm (pseudoEvents (.ldKey k) ++ pseudoEvents (.ldDin p)) ∧
    .reset ∉ mixedSchedule ∧ mixedSchedule.count .core = 31 :=
  ⟨rfl, .inr rfl, List.perm_append_comm, by decide, by decide⟩

/-- `KeyIsInvisibleWithoutEnc`: two keys, and a schedule with a PERM in it. -/
theorem test_witness_two_keys :
    let s := withSchedule (ctrlWrite 1#32 :: mixedSchedule) loaded
    SameButKey s { s with key := 1#64 } ∧ s.busy = false ∧ ∀ e ∈ s.events, startRequested e ≠ some .enc :=
  ⟨rfl, rfl, by decide⟩

/-- `KeyReachesHostOnlyThroughDout`: a step that completes, and one that does not. -/
theorem test_witness_secrets :
    SameButSecrets (withSchedule [.core] lastStep) { withSchedule [.core] lastStep with key := 1#64, h := 2#32, l := 3#32 } ∧
    completes (nextEvent (withSchedule [.core] busyState)) (withSchedule [.core] busyState) = false ∧
    completes (nextEvent (withSchedule [.core] lastStep)) (withSchedule [.core] lastStep) = true :=
  ⟨rfl, by decide, by decide⟩

/-- `IdleWorkingHalvesAreIrrelevant`: idle, and then busy after one step. -/
theorem test_witness_halves :
    let s := withSchedule [ctrlWrite 1#32] loaded
    SameButHalves s { s with h := 5#32, l := 6#32 } ∧ s.busy = false ∧
      (nextOf (runSteps 1 s)).map State.busy = some true ∧ (nextOf (runSteps 0 s)).map State.busy = some false :=
  ⟨rfl, rfl, by decide, by decide⟩

/-- `ReferenceTimingIsThirtyTwoEdges`: both lengths at the boundary. -/
theorem test_witness_reference_timing :
    let c : Cycle := { rstN := true, sel := true, txn := .ofHeader 0b11011000#8 1#32 }
    let d : Cycle := { rstN := true, sel := true, txn := .ofHeader 0b01011100#8 0#32 }
    loaded.busy = false ∧ c.rstN = true ∧ c.sel = true ∧ startRequested (.host (.bus c.txn)) = some .perm ∧
    (∀ e ∈ List.replicate 31 d, e.rstN = true) ∧ (List.replicate 31 d).length < Config.referenceLatency ∧
    (∀ e ∈ List.replicate 32 d, e.rstN = true) ∧ (List.replicate 32 d).length = Config.referenceLatency := by decide

theorem test_witness_reset_edge :
    let c : Cycle := { rstN := false, sel := true, txn := .ofHeader 0b11011000#8 1#32 }
    c.rstN = false ∧ c.sel = true := by decide

/-- `RawLinesCarrySizeAndOffset`: the last offset, and each size. -/
theorem test_witness_raw_lines : (31 < 32 ∧ ((1 : Nat) = 1 ∨ (1 : Nat) = 2 ∨ (1 : Nat) = 4)) ∧
    (0 < 32 ∧ ((2 : Nat) = 1 ∨ (2 : Nat) = 2 ∨ (2 : Nat) = 4)) ∧
    (24 < 32 ∧ ((4 : Nat) = 1 ∨ (4 : Nat) = 2 ∨ (4 : Nat) = 4)) := by decide

/-- `RotationMovesEveryBit`: the smallest and the largest amount, the lowest and the highest bit. -/
theorem test_witness_rotation : (1 ≤ 1 ∧ 1 ≤ 31 ∧ 0 < 32 ∧ 0 < 1) ∧ (1 ≤ 31 ∧ 31 ≤ 31 ∧ 31 < 32 ∧ ¬ 31 < 31) := by decide

end Sys2Proof.Tests
end

section
/-! # What each event does, as a function of the state

Every event answers a next state, so the proofs below compute with that state itself. Each function here is tied to the
model by the equation after it. -/

namespace Sys2Proof.Machine

/-- The state that a transaction leaves (42_host_interface.md R150). -/
def transactionResult (t : Transaction) (s : State) : State :=
  if t.admitted = true then
    if t.wr = true then registerWrite (Reg.ofOffset t.off) t.wdata s else answer (windowRead (Reg.ofOffset t.off) s) s
  else raiseBusError s

/-- The state that an event leaves. -/
def eventResult : Event → State → State
  | .host r, s => transactionResult r.transaction s
  | .core, s => coreStep (noResponse s)
  | .reset, s => resetBlock s

/-- The state that a list of events leaves. -/
def eventsResult : List Event → State → State
  | [], s => s
  | e :: es, s => eventsResult es (eventResult e s)

theorem transactionResult_notAdmitted {t : Transaction} (h : t.admitted = false) (s : State) :
    transactionResult t s = raiseBusError s := by
  simp [transactionResult, h]

theorem transactionResult_write {t : Transaction} (h : t.admitted = true) (hw : t.wr = true) (s : State) :
    transactionResult t s = registerWrite (Reg.ofOffset t.off) t.wdata s := by
  simp [transactionResult, h, hw]

theorem transactionResult_read {t : Transaction} (h : t.admitted = true) (hw : t.wr = false) (s : State) :
    transactionResult t s = answer (windowRead (Reg.ofOffset t.off) s) s := by
  simp [transactionResult, h, hw]

/-- A command word presented by itself acts as the same word written to `CTRL` (30_encoding.md R83). -/
theorem hostStep_command (w : Word) (s : State) : hostStep (.command w) s = .next (registerWrite .ctrl w s) := by
  cases h : commandOf w with
  | none =>
    rw [hostStep_illegalCommand h, registerWrite, h]
    rfl
  | some c => simp [hostStep_legalCommand h, registerWrite, h]

theorem hostStep_bus (t : Transaction) (s : State) : hostStep (.bus t) s = .next (transactionResult t s) := by
  cases ha : t.admitted with
  | false => rw [hostStep_notAdmitted ha, transactionResult_notAdmitted ha]
  | true =>
    cases hw : t.wr with
    | false => rw [hostStep_read ha hw, transactionResult_read ha hw]
    | true => rw [hostStep_write ha hw, transactionResult_write ha hw]

theorem hostStep_eq (r : Request) (s : State) : hostStep r s = .next (transactionResult r.transaction s) := by
  cases r with
  | bus t => exact hostStep_bus t s
  | command w =>
    have ha : (Reg.ctrl.writeTransaction w).admitted = true := admit_offset .ctrl
    have hr : Reg.ofOffset (Reg.ctrl.writeTransaction w).off = .ctrl := Reg.ofOffset_offset .ctrl
    rw [hostStep_command, Request.transaction, transactionResult_write ha rfl, hr]
    rfl

theorem eventStep_eq (e : Event) (s : State) : eventStep e s = .next (eventResult e s) := by
  cases e with
  | host r => exact hostStep_eq r s
  | core => rfl
  | reset => rfl

theorem step_eq (s : State) : step s = .next (eventResult (nextEvent s) (takeEvent s)) := eventStep_eq _ _

theorem runEvents_eq (es : List Event) (s : State) : runEvents es s = .next (eventsResult es s) := by
  induction es generalizing s with
  | nil => rfl
  | cons e es ih => simp only [runEvents, eventStep_eq, ih, eventsResult]

theorem eventsResult_append (es fs : List Event) (s : State) :
    eventsResult (es ++ fs) s = eventsResult fs (eventsResult es s) := by
  induction es generalizing s with
  | nil => rfl
  | cons e es ih => exact ih _

/-! ## No event depends on the schedule or changes it -/

@[simp] theorem withSchedule_busy (es : List Event) (s : State) : (withSchedule es s).busy = s.busy := rfl
@[simp] theorem withSchedule_i (es : List Event) (s : State) : (withSchedule es s).i = s.i := rfl
@[simp] theorem withSchedule_events (es : List Event) (s : State) : (withSchedule es s).events = es := rfl

theorem writeWhenIdle_withSchedule (effect : State → State) (es : List Event)
    (h : ∀ u, effect (withSchedule es u) = withSchedule es (effect u)) (s : State) :
    writeWhenIdle effect (withSchedule es s) = withSchedule es (writeWhenIdle effect s) := by
  cases hb : s.busy with
  | false => simp only [writeWhenIdle, withSchedule_busy, hb, h]; rfl
  | true => simp only [writeWhenIdle, withSchedule_busy, hb]; rfl

theorem commandEffect_withSchedule (c : Option Command) (es : List Event) (s : State) :
    commandEffect c (withSchedule es s) = withSchedule es (commandEffect c s) := by
  cases c with
  | none => rfl
  | some c => cases c <;> rfl

theorem registerWrite_withSchedule (r : Reg) (w : Word) (es : List Event) (s : State) :
    registerWrite r w (withSchedule es s) = withSchedule es (registerWrite r w s) := by
  cases r with
  | keyLo => exact writeWhenIdle_withSchedule (fun u => { u with key := setLowHalf u.key w }) es (fun _ => rfl) s
  | keyHi => exact writeWhenIdle_withSchedule (fun u => { u with key := setHighHalf u.key w }) es (fun _ => rfl) s
  | dinLo => exact writeWhenIdle_withSchedule (fun u => { u with din := setLowHalf u.din w }) es (fun _ => rfl) s
  | dinHi => exact writeWhenIdle_withSchedule (fun u => { u with din := setHighHalf u.din w }) es (fun _ => rfl) s
  | ctrl => exact writeWhenIdle_withSchedule _ es (commandEffect_withSchedule _ es) s
  | doutLo | doutHi | status => rfl

theorem windowRead_withSchedule (r : Reg) (es : List Event) (s : State) :
    windowRead r (withSchedule es s) = windowRead r s := by
  cases r <;> rfl

theorem transactionResult_withSchedule (t : Transaction) (es : List Event) (s : State) :
    transactionResult t (withSchedule es s) = withSchedule es (transactionResult t s) := by
  cases ha : t.admitted with
  | false =>
    rw [transactionResult_notAdmitted ha, transactionResult_notAdmitted ha]
    rfl
  | true =>
    cases hw : t.wr with
    | false =>
      rw [transactionResult_read ha hw, transactionResult_read ha hw, windowRead_withSchedule]
      rfl
    | true => rw [transactionResult_write ha hw, transactionResult_write ha hw, registerWrite_withSchedule]

theorem coreStep_withSchedule (es : List Event) (s : State) :
    coreStep (withSchedule es s) = withSchedule es (coreStep s) := by
  rcases coreStep_cases s with ⟨hb, h⟩ | ⟨hb, hi, h⟩ | ⟨hb, hi, h⟩
  · rw [h, coreStep]
    simp [hb]
  · rw [h, coreStep]
    simp only [withSchedule_busy, withSchedule_i, hb, hi, if_true, if_false]
    rfl
  · rw [h, coreStep]
    simp only [withSchedule_busy, withSchedule_i, hb, hi, if_true]
    rfl

theorem eventResult_withSchedule (e : Event) (es : List Event) (s : State) :
    eventResult e (withSchedule es s) = withSchedule es (eventResult e s) := by
  cases e with
  | host r => exact transactionResult_withSchedule _ es s
  | core => exact coreStep_withSchedule es (noResponse s)
  | reset => rfl

@[simp] theorem eventResult_events (e : Event) (s : State) : (eventResult e s).events = s.events := by
  have h : eventResult e s = withSchedule s.events (eventResult e s) := eventResult_withSchedule e s.events s
  rw [h, withSchedule_events]

/-! ## Runs as the events they perform -/

theorem step_withSchedule_cons (e : Event) (es : List Event) (s : State) :
    step (withSchedule (e :: es) s) = .next (withSchedule es (eventResult e s)) := by
  rw [step_eq, ← eventResult_withSchedule]
  rfl

/-- R58: as many steps as a schedule's first part has events perform that part, and leave the rest. -/
theorem runSteps_withSchedule_append (es rest : List Event) (s : State) :
    runSteps es.length (withSchedule (es ++ rest) s) = .next (withSchedule rest (eventsResult es s)) := by
  induction es generalizing s with
  | nil => rfl
  | cons e es ih =>
    rw [List.length_cons, List.cons_append, runSteps_succ_of_next _ (step_withSchedule_cons e (es ++ rest) s)]
    exact ih _

theorem runSteps_schedule (s : State) :
    runSteps s.events.length s = .next (withSchedule [] (eventsResult s.events s)) := by
  have h := runSteps_withSchedule_append s.events [] s
  rwa [List.append_nil] at h

end Sys2Proof.Machine
end

section
/-! # Progress: the schedule runs out, and then the Core does -/

namespace Sys2Proof.Machine

/-- How many Core steps the operation in progress still takes (40_permutation.md R108, R109). -/
def coreStepsLeft (s : State) : Nat := if s.busy then 32 - s.i.toNat else 0

theorem coreStepsLeft_le (s : State) : coreStepsLeft s ≤ 32 := by
  unfold coreStepsLeft
  split <;> omega

theorem busy_eq_false_of_coreStepsLeft {s : State} (h : coreStepsLeft s = 0) : s.busy = false := by
  have hi := s.i.isLt
  cases hb : s.busy with
  | false => rfl
  | true =>
    simp only [coreStepsLeft, hb, if_true] at h
    omega

/-- Each Core step of an operation is one step nearer to its completion. -/
theorem coreStepsLeft_coreStep (s : State) : coreStepsLeft (coreStep s) = coreStepsLeft s - 1 := by
  rcases coreStep_cases s with ⟨hb, h⟩ | ⟨hb, hi, h⟩ | ⟨hb, hi, h⟩
  · simp [h, coreStepsLeft, hb]
  · have hne : s.i.toNat ≠ 31 := fun h31 => hi (BitVec.eq_of_toNat_eq h31)
    have hnext : (s.i + 1#5).toNat = s.i.toNat + 1 := by
      have := s.i.isLt
      rw [BitVec.toNat_add]
      simp only [BitVec.toNat_ofNat]
      omega
    simp only [h, coreStepsLeft, advance_busy, advance_i, hb, if_true, hnext]
    omega
  · simp [h, coreStepsLeft, hb, hi]

/-- With nothing scheduled, each step of the machine is a Core step (log 2). -/
theorem runSteps_without_events (n : Nat) {s : State} (h : s.events = []) :
    ∃ t, runSteps n s = .next t ∧ t.events = [] ∧ coreStepsLeft t = coreStepsLeft s - n := by
  induction n generalizing s with
  | zero => exact ⟨s, rfl, h, rfl⟩
  | succ n ih =>
    have hstep : step s = .next (eventResult .core s) := (step_nil h).trans (eventStep_core s)
    have hleft : coreStepsLeft (eventResult .core s) = coreStepsLeft s - 1 := coreStepsLeft_coreStep (noResponse s)
    obtain ⟨t, hrun, hevents, ht⟩ := ih ((eventResult_events .core s).trans h)
    refine ⟨t, (runSteps_succ_of_next n hstep).trans hrun, hevents, ?_⟩
    omega

/-- Settles O41: the scheduled events, then at most 32 Core steps, since each lowers `coreStepsLeft`. -/
theorem everyRunBecomesQuiescent : Obligations.EveryRunBecomesQuiescent := by
  intro s
  obtain ⟨t, hrun, hevents, hleft⟩ :=
    runSteps_without_events 32 (s := withSchedule [] (eventsResult s.events s)) rfl
  refine ⟨t, (runSteps_add _ 32 (runSteps_schedule s)).trans hrun, busy_eq_false_of_coreStepsLeft ?_, hevents⟩
  have := coreStepsLeft_le (withSchedule [] (eventsResult s.events s))
  omega

end Sys2Proof.Machine
end

section
/-! # The reference clock as an interleaving -/

namespace Sys2Proof.Machine

/-- The state that one rising edge leaves. -/
def edgeResult (c : Cycle) (s : State) : State := eventsResult (c.events s) s

/-- The state that a list of rising edges leaves. -/
def clockResult : List Cycle → State → State
  | [], s => s
  | c :: cs, s => clockResult cs (edgeResult c s)

/-- The events of each edge of a run of the clock. -/
def edgeEvents : List Cycle → State → List (List Event)
  | [], _ => []
  | c :: cs, s => c.events s :: edgeEvents cs (edgeResult c s)

theorem clockEdge_eq (c : Cycle) (s : State) : clockEdge c s = .next (edgeResult c s) := runEvents_eq _ s

theorem clockRun_eq (cs : List Cycle) (s : State) : clockRun cs s = .next (clockResult cs s) := by
  induction cs generalizing s with
  | nil => rfl
  | cons c cs ih => simp only [clockRun, clockEdge_eq, ih, clockResult]

theorem length_edgeEvents (cs : List Cycle) (s : State) : (edgeEvents cs s).length = cs.length := by
  induction cs generalizing s with
  | nil => rfl
  | cons c cs ih => simp only [edgeEvents, List.length_cons, ih]

/-- The events of an edge are those of its cycle in the state that the edges before it leave. -/
theorem getElem?_edgeEvents {cs : List Cycle} {j : Nat} {c : Cycle} (h : cs[j]? = some c) (s : State) :
    (edgeEvents cs s)[j]? = some (c.events (clockResult (cs.take j) s)) := by
  induction cs generalizing j s with
  | nil => simp at h
  | cons d cs ih =>
    cases j with
    | zero =>
      obtain rfl : d = c := by simpa using h
      rfl
    | succ j => exact ih (j := j) (by simpa using h) (edgeResult d s)

/-- Performing the events of all edges, one after another, is the run of the clock. -/
theorem eventsResult_flatten_edgeEvents (cs : List Cycle) (s : State) :
    eventsResult (edgeEvents cs s).flatten s = clockResult cs s := by
  induction cs generalizing s with
  | nil => rfl
  | cons c cs ih =>
    rw [edgeEvents, List.flatten_cons, eventsResult_append]
    exact ih (edgeResult c s)

theorem eventsResult_withSchedule (es fs : List Event) (s : State) :
    eventsResult es (withSchedule fs s) = withSchedule fs (eventsResult es s) := by
  induction es generalizing s with
  | nil => rfl
  | cons e es ih => rw [eventsResult, eventResult_withSchedule, ih, eventsResult]

/-- Settles O48, with `edgeEvents` as the interleaving. -/
theorem referenceClockIsOneInterleaving : Obligations.ReferenceClockIsOneInterleaving := by
  intro cs s
  refine ⟨edgeEvents cs (withSchedule [] s), clockResult cs (withSchedule [] s), length_edgeEvents cs _, ?_, ?_,
    clockRun_eq cs _⟩
  · intro j c hc
    refine ⟨_, clockRun_eq (cs.take j) _, (getElem?_edgeEvents hc _).trans ?_⟩
    cases hr : c.rstN <;> simp [Cycle.events, Cycle.hostEvents, hr]
  · have hrun := runSteps_withSchedule_append (edgeEvents cs (withSchedule [] s)).flatten [] s
    rw [List.append_nil] at hrun
    rw [hrun, ← eventsResult_withSchedule, eventsResult_flatten_edgeEvents]

end Sys2Proof.Machine
end

section
/-! # The key under a schedule without ENC -/

namespace Sys2Proof.Machine

/-- The command that starts an operation. -/
def Mode.command : Mode → Command
  | .perm => .perm
  | .enc => .enc

/-- Only the words 0, 1 and 2 are commands (30_encoding.md R84, R85). -/
theorem commandOf_eq_some_iff {w : Word} {c : Command} : commandOf w = some c ↔ w = c.word := by
  have hhigh : w.extractLsb' 2 30 = 0#30 ↔ w.toNat < 4 := by
    simp only [BitVec.toNat_eq, BitVec.extractLsb'_toNat, BitVec.toNat_ofNat, Nat.shiftRight_eq_div_pow]
    omega
  have hlow (k : BitVec 2) : w.extractLsb' 0 2 = k ↔ w.toNat % 4 = k.toNat := by
    simp only [BitVec.toNat_eq, BitVec.extractLsb'_toNat, Nat.shiftRight_zero]
  constructor
  · intro h
    apply BitVec.eq_of_toNat_eq
    simp only [commandOf, ne_eq, hhigh, hlow, BitVec.toNat_ofNat] at h
    split_ifs at h <;> cases h <;> simp only [Command.word, BitVec.toNat_ofNat] <;> omega
  · rintro rfl
    cases c <;> rfl

/-- An admitted write writes the register that its offset selects (20_memory.md R52, R55). -/
theorem writeTo_host {r : Request} (ha : r.transaction.admitted = true) (hw : r.transaction.wr = true) :
    writeTo (Reg.ofOffset r.transaction.off).offset (.host r) = some r.transaction.wdata := by
  have hsize := ((Transaction.admitted_iff _).1 ha).1
  have hoff := Transaction.admitted_off ha
  simp only [writeTo, hoff, hw, hsize, sizeWord, and_self, if_true]

theorem startRequested_of_writeTo {e : Event} {m : Mode} (h : writeTo Reg.ctrl.offset e = some m.command.word) :
    startRequested e = some m := by
  have h' : writeTo 0x18#5 e = some m.command.word := h
  cases m <;> simp [startRequested, h', Mode.command, Command.word]

/-- Two states that differ in the key alone, with no ENC in progress: the key plays no part in what follows until an ENC
starts. -/
structure KeyUnused (s s' : State) : Prop where
  same : SameButKey s s'
  notEnc : s.busy = true → s.mode = .perm

namespace KeyUnused

variable {s s' : State}

theorem of_idle (hsame : SameButKey s s') (hidle : s.busy = false) : KeyUnused s s' :=
  ⟨hsame, fun hbusy => absurd (hidle.symm.trans hbusy) Bool.false_ne_true⟩

theorem busy_eq (h : KeyUnused s s') : s'.busy = s.busy := (congrArg State.busy h.same).symm

theorem i_eq (h : KeyUnused s s') : s'.i = s.i := (congrArg State.i h.same).symm

theorem events_eq (h : KeyUnused s s') : s'.events = s.events := (congrArg State.events h.same).symm

theorem windowRead_eq (h : KeyUnused s s') (r : Reg) : windowRead r s' = windowRead r s := by
  rw [← (h.same : { s with key := s'.key } = s')]
  cases r <;> rfl

/-- The same operation on both sides, when no value of the key changes what it does to the other registers. -/
theorem map (h : KeyUnused s s') {f : State → State} (hkey : ∀ k, SameButKey (f s) (f { s with key := k }))
    (hmode : (f s).busy = true → (f s).mode = .perm) : KeyUnused (f s) (f s') := by
  refine ⟨?_, hmode⟩
  have hs : { s with key := s'.key } = s' := h.same
  exact hs ▸ hkey s'.key

theorem answer (h : KeyUnused s s') (v : Word) : KeyUnused (answer v s) (answer v s') :=
  h.map (fun _ => rfl) h.notEnc

theorem writeWhenIdle (h : KeyUnused s s') {effect : State → State} (heffect : KeyUnused (effect s) (effect s')) :
    KeyUnused (writeWhenIdle effect s) (writeWhenIdle effect s') := by
  rcases writeWhenIdle_cases effect s with ⟨hb, hs⟩ | ⟨hb, hs⟩
  · rw [hs, Machine.writeWhenIdle, h.busy_eq, hb]
    exact h.map (fun _ => rfl) h.notEnc
  · rw [hs, Machine.writeWhenIdle, h.busy_eq, hb]
    exact heffect.answer 0#32

theorem writeWhenIdle_map (h : KeyUnused s s') (effect : State → State)
    (hkey : ∀ k, SameButKey (effect s) (effect { s with key := k }))
    (hmode : (effect s).busy = true → (effect s).mode = .perm) :
    KeyUnused (Machine.writeWhenIdle effect s) (Machine.writeWhenIdle effect s') :=
  h.writeWhenIdle (h.map hkey hmode)

/-- PERM starts on `DIN` alone (40_permutation.md R107). -/
theorem commandEffect (h : KeyUnused s s') {c : Option Command} (hc : c ≠ some .enc) :
    KeyUnused (commandEffect c s) (commandEffect c s') := by
  match c with
  | none => exact h.map (f := raiseCommandError) (fun _ => rfl) h.notEnc
  | some .nop => exact h
  | some .perm => exact h.map (f := start .perm) (fun _ => rfl) (fun _ => rfl)
  | some .enc => exact absurd rfl hc

theorem registerWrite (h : KeyUnused s s') {r : Reg} {w : Word} (hc : r = .ctrl → commandOf w ≠ some .enc) :
    KeyUnused (registerWrite r w s) (registerWrite r w s') := by
  cases r with
  | keyLo => exact h.writeWhenIdle_map (fun u => { u with key := setLowHalf u.key w }) (fun _ => rfl) h.notEnc
  | keyHi => exact h.writeWhenIdle_map (fun u => { u with key := setHighHalf u.key w }) (fun _ => rfl) h.notEnc
  | dinLo => exact h.writeWhenIdle_map (fun u => { u with din := setLowHalf u.din w }) (fun _ => rfl) h.notEnc
  | dinHi => exact h.writeWhenIdle_map (fun u => { u with din := setHighHalf u.din w }) (fun _ => rfl) h.notEnc
  | doutLo | doutHi => exact h.answer 0#32
  | ctrl => exact h.writeWhenIdle (h.commandEffect (hc rfl))
  | status => exact (h.map (f := clearStatus w) (fun _ => rfl) h.notEnc).answer 0#32

theorem transactionResult (h : KeyUnused s s') {r : Request} (hr : startRequested (.host r) ≠ some .enc) :
    KeyUnused (transactionResult r.transaction s) (transactionResult r.transaction s') := by
  cases ha : r.transaction.admitted with
  | false =>
    rw [transactionResult_notAdmitted ha, transactionResult_notAdmitted ha]
    exact h.map (fun _ => rfl) h.notEnc
  | true =>
    cases hw : r.transaction.wr with
    | false =>
      rw [transactionResult_read ha hw, transactionResult_read ha hw, h.windowRead_eq]
      exact h.answer _
    | true =>
      rw [transactionResult_write ha hw, transactionResult_write ha hw]
      refine h.registerWrite fun hctrl henc => hr (startRequested_of_writeTo (m := .enc) ?_)
      rw [← hctrl, writeTo_host ha hw, commandOf_eq_some_iff.1 henc, Mode.command]

/-- The result of a PERM is whitened with zeros (40_permutation.md R109). -/
theorem coreStep (h : KeyUnused s s') : KeyUnused (coreStep s) (coreStep s') := by
  rcases coreStep_cases s with ⟨hb, hs⟩ | ⟨hb, hi, hs⟩ | ⟨hb, hi, hs⟩
  · rw [hs, Machine.coreStep, h.busy_eq, hb]
    exact h
  · rw [hs, Machine.coreStep, h.busy_eq, h.i_eq, hb, if_pos rfl, if_neg hi]
    exact h.map (fun _ => rfl) h.notEnc
  · rw [hs, Machine.coreStep, h.busy_eq, h.i_eq, hb, if_pos rfl, if_pos hi]
    refine h.map (fun k => ?_) (fun hbusy => absurd hbusy Bool.false_ne_true)
    simp [SameButKey, complete, h.notEnc hb, effectiveKey]

theorem eventResult (h : KeyUnused s s') {e : Event} (he : startRequested e ≠ some .enc) :
    KeyUnused (eventResult e s) (eventResult e s') := by
  cases e with
  | host r => exact h.transactionResult he
  | core => exact (h.map (f := noResponse) (fun _ => rfl) h.notEnc).coreStep
  | reset => exact h.map (f := resetBlock) (fun _ => rfl) (fun _ => rfl)

theorem nextEvent_eq (h : KeyUnused s s') : nextEvent s' = nextEvent s := by
  rw [nextEvent, nextEvent, h.events_eq]

/-- Two runs of one schedule without an ENC start stay alike. -/
theorem runSteps (n : Nat) (h : KeyUnused s s') (hevents : ∀ e ∈ s.events, startRequested e ≠ some .enc) :
    ∃ t t', runSteps n s = .next t ∧ runSteps n s' = .next t' ∧ KeyUnused t t' := by
  induction n generalizing s s' with
  | zero => exact ⟨s, s', rfl, rfl, h⟩
  | succ n ih =>
    have hnext : startRequested (nextEvent s) ≠ some .enc := by
      rcases hs : s.events with _ | ⟨e, rest⟩
      · simp [nextEvent, hs, startRequested, writeTo]
      · simpa [nextEvent, hs] using hevents e (by simp [hs])
    have hstep := (h.map (f := takeEvent) (fun _ => rfl) h.notEnc).eventResult hnext
    obtain ⟨t, t', ht, ht', htt'⟩ := ih hstep fun e he => hevents e <| by
      rw [eventResult_events, takeEvent_events] at he
      exact List.mem_of_mem_tail he
    refine ⟨t, t', (runSteps_succ_of_next n (step_eq s)).trans ht, ?_, htt'⟩
    rw [runSteps_succ_of_next n (step_eq s'), h.nextEvent_eq]
    exact ht'

end KeyUnused

/-- Settles O43, by the invariant `KeyUnused` of the pair of runs. -/
theorem keyIsInvisibleWithoutEnc : Obligations.KeyIsInvisibleWithoutEnc := by
  intro s s' n hsame hidle hevents
  obtain ⟨t, t', ht, ht', htt'⟩ := (KeyUnused.of_idle hsame hidle).runSteps n hevents
  exact ⟨t, t', ht, ht', htt'.same⟩

end Sys2Proof.Machine
end

section
/-! # Rotation, bit by bit -/

namespace Sys2Proof.Machine

/-- R105: where each bit of a rotated word comes from. -/
theorem rotl32_getLsbD (v : Word) {r k : Nat} (hr : r ≤ 31) (hk : k < 32) :
    (rotl32 v r).getLsbD k = if k < r then v.getLsbD (k + 32 - r) else v.getLsbD (k - r) := by
  simp only [rotl32, BitVec.getLsbD_or, BitVec.getLsbD_shiftLeft, BitVec.getLsbD_ushiftRight, hk, decide_true,
    Bool.true_and]
  by_cases h : k < r
  · have e : 32 - r + k = k + 32 - r := by omega
    simp [h, e]
  · have hout : v.getLsbD (32 - r + k) = false := BitVec.getLsbD_of_ge v _ (by omega)
    simp [h, hout]

/-- R106: rotating back brings each bit home; the two halves of the word, split at bit `32 - r`, trade places. -/
theorem rotr32_rotl32 (v : Word) {r : Nat} (hr1 : 1 ≤ r) (hr : r ≤ 31) : rotr32 (rotl32 v r) r = v := by
  apply BitVec.eq_of_getLsbD_eq
  intro k hk
  rw [rotr32, rotl32_getLsbD _ (by omega) hk]
  split
  case isTrue h =>
    rw [rotl32_getLsbD v hr (by omega), if_neg (by omega)]
    congr 1
    omega
  case isFalse h =>
    rw [rotl32_getLsbD v hr (by omega), if_pos (by omega)]
    congr 1
    omega

/-- Settles O55, bit by bit. -/
theorem rotationMovesEveryBit : Obligations.RotationMovesEveryBit :=
  fun v _ _ hr1 hr hk => ⟨rotl32_getLsbD v hr hk, rotr32_rotl32 v hr1 hr⟩

end Sys2Proof.Machine
end

section
/-! # What an event can do, once for all

An event writes at most one register, and each predicate of Safety.lean on the writes of an event is about that register
and its data. `EventEffect` is the inversion of an event, one constructor for each of its outcomes; the statements about
every step are case analyses on it. -/

namespace Sys2Proof

/-- The registers whose writes are dropped while BUSY (42_host_interface.md R151). -/
def Reg.guarded : Reg → Bool
  | .keyLo | .keyHi | .dinLo | .dinHi | .ctrl => true
  | .doutLo | .doutHi | .status => false

namespace Machine

/-! ## The register an event writes -/

/-- The register that an event writes, with the data: an admitted write reaches exactly one (20_memory.md R52, R55). -/
def writtenRegister : Event → Option (Reg × Word)
  | .host r =>
    if r.transaction.admitted = true ∧ r.transaction.wr = true then
      some (Reg.ofOffset r.transaction.off, r.transaction.wdata)
    else none
  | .core => none
  | .reset => none

/-- The data that an event writes to a given register. -/
def dataWritten (q : Reg) (e : Event) : Option Word :=
  (writtenRegister e).bind fun p => if p.1 = q then some p.2 else none

/-- The operation that a command starts. -/
def startedBy : Command → Option Mode
  | .nop => none
  | .perm => some .perm
  | .enc => some .enc

theorem offset_eq_iff {off : BitVec 5} (h : off.extractLsb' 0 2 = 0b00#2) (q : Reg) :
    off = q.offset ↔ Reg.ofOffset off = q := by
  constructor
  · rintro rfl
    exact Reg.ofOffset_offset q
  · rintro rfl
    exact (Reg.offset_ofOffset off h).symm

/-- The ports of a write to `q` are those of an admitted write whose offset selects `q` (R52, R55). -/
theorem writePorts_iff (t : Transaction) (q : Reg) :
    (t.wr = true ∧ t.size = 0b10#2 ∧ t.off = q.offset) ↔
      (t.admitted = true ∧ t.wr = true) ∧ Reg.ofOffset t.off = q := by
  rw [Transaction.admitted_iff, sizeWord]
  constructor
  · rintro ⟨hw, hsize, hoff⟩
    have haligned : t.off.extractLsb' 0 2 = 0b00#2 := by
      rw [hoff]
      cases q <;> rfl
    exact ⟨⟨⟨hsize, haligned⟩, hw⟩, (offset_eq_iff haligned q).1 hoff⟩
  · rintro ⟨⟨⟨hsize, haligned⟩, hw⟩, hq⟩
    exact ⟨hw, hsize, (offset_eq_iff haligned q).2 hq⟩

theorem writeTo_offset (q : Reg) (e : Event) : writeTo q.offset e = dataWritten q e := by
  cases e with
  | core | reset => rfl
  | host r =>
    simp only [writeTo, dataWritten, writtenRegister, writePorts_iff]
    by_cases hw : r.transaction.admitted = true ∧ r.transaction.wr = true
    · simp [hw]
    · simp only [hw, false_and, if_false, Option.bind_none]

theorem writeTo_keyLo (e : Event) : writeTo 0x00#5 e = dataWritten .keyLo e := writeTo_offset .keyLo e
theorem writeTo_keyHi (e : Event) : writeTo 0x04#5 e = dataWritten .keyHi e := writeTo_offset .keyHi e
theorem writeTo_dinLo (e : Event) : writeTo 0x08#5 e = dataWritten .dinLo e := writeTo_offset .dinLo e
theorem writeTo_dinHi (e : Event) : writeTo 0x0C#5 e = dataWritten .dinHi e := writeTo_offset .dinHi e
theorem writeTo_ctrl (e : Event) : writeTo 0x18#5 e = dataWritten .ctrl e := writeTo_offset .ctrl e
theorem writeTo_status (e : Event) : writeTo 0x1C#5 e = dataWritten .status e := writeTo_offset .status e

theorem guardedWrite_eq (e : Event) : guardedWrite e = (writtenRegister e).any fun p => p.1.guarded := by
  simp only [guardedWrite, writeTo_keyLo, writeTo_keyHi, writeTo_dinLo, writeTo_dinHi, writeTo_ctrl, dataWritten]
  rcases writtenRegister e with _ | ⟨q, w⟩
  · rfl
  · cases q <;> rfl

/-- Every word is a command's word, or no command (30_encoding.md R84, R85). -/
theorem commandOf_cases (w : Word) :
    (commandOf w = none ∧ ∀ c : Command, w ≠ c.word) ∨ ∃ c : Command, commandOf w = some c ∧ w = c.word := by
  cases h : commandOf w with
  | none => exact .inl ⟨rfl, fun c hc => by simp [commandOf_eq_some_iff.2 hc] at h⟩
  | some c => exact .inr ⟨c, rfl, commandOf_eq_some_iff.1 h⟩

theorem startRequested_eq (e : Event) :
    startRequested e = (dataWritten .ctrl e).bind fun w => (commandOf w).bind startedBy := by
  rw [startRequested, writeTo_ctrl]
  cases dataWritten .ctrl e with
  | none => rfl
  | some w =>
    rcases commandOf_cases w with ⟨hnone, hne⟩ | ⟨c, hc, rfl⟩
    · have h1 : w ≠ 1#32 := hne .perm
      have h2 : w ≠ 2#32 := hne .enc
      simp [hnone, h1, h2]
    · cases c <;> rfl

theorem illegalCommandWritten_eq (e : Event) :
    illegalCommandWritten e = (dataWritten .ctrl e).any fun w => (commandOf w).isNone := by
  rw [illegalCommandWritten, writeTo_ctrl]
  cases dataWritten .ctrl e with
  | none => rfl
  | some w =>
    rcases commandOf_cases w with ⟨hnone, hne⟩ | ⟨c, hc, rfl⟩
    · have h0 : w ≠ 0#32 := hne .nop
      have h1 : w ≠ 1#32 := hne .perm
      have h2 : w ≠ 2#32 := hne .enc
      simp [hnone, h0, h1, h2]
    · cases c <;> rfl

theorem dataWritten_status_of_guarded {e : Event} {q : Reg} {w : Word} (hw : writtenRegister e = some (q, w))
    (hq : q.guarded = true) : dataWritten .status e = none := by
  have hne : q ≠ .status := by
    rintro rfl
    cases hq
  simp [dataWritten, hw, hne]

@[simp] theorem startedBy_command (m : Mode) : startedBy m.command = some m := by cases m <;> rfl

/-- A Core step writes nothing. -/
@[simp] theorem writeTo_core (off : BitVec 5) : writeTo off .core = none := rfl
@[simp] theorem startRequested_core : startRequested .core = none := rfl
@[simp] theorem illegalCommandWritten_core : illegalCommandWritten .core = false := rfl
@[simp] theorem guardedWrite_core : guardedWrite .core = false := rfl

/-- The Core alone completes an operation (40_permutation.md R109). -/
@[simp] theorem completes_core (s : State) : completes .core s = (s.busy && s.i == 31#5) := by simp [completes]
@[simp] theorem completes_host (r : Request) (s : State) : completes (.host r) s = false := by simp [completes]

/-! ## The inversion of an event -/

theorem writeWhenIdle_of_idle {s : State} (hb : s.busy = false) (effect : State → State) :
    writeWhenIdle effect s = answer 0#32 (effect s) := by
  simp [writeWhenIdle, hb]

theorem writeWhenIdle_of_busy {s : State} (hb : s.busy = true) (effect : State → State) :
    writeWhenIdle effect s = busyDrop s := by
  simp [writeWhenIdle, hb]

theorem registerWrite_of_busy {s : State} {q : Reg} (hq : q.guarded = true) (hb : s.busy = true) (w : Word) :
    registerWrite q w s = busyDrop s := by
  cases q with
  | keyLo | keyHi | dinLo | dinHi | ctrl => rw [registerWrite, writeWhenIdle_of_busy hb]
  | doutLo | doutHi | status => cases hq

/-- What the event `e` can make of the state `s`. -/
inductive EventEffect (s : State) : Event → State → Prop
  | reset : EventEffect s .reset (resetBlock s)
  | coreRests (hb : s.busy = false) : EventEffect s .core (noResponse s)
  | coreAdvances (hb : s.busy = true) (hi : s.i ≠ 31#5) : EventEffect s .core (advance (noResponse s))
  | coreCompletes (hb : s.busy = true) (hi : s.i = 31#5) : EventEffect s .core (complete (noResponse s))
  /-- A read, or a bus error. -/
  | responds {r : Request} (p : Response) (hw : writtenRegister (.host r) = none) :
      EventEffect s (.host r) { s with resp := some p }
  | ignoresDoutLo {r : Request} {w : Word} (hw : writtenRegister (.host r) = some (.doutLo, w)) :
      EventEffect s (.host r) (answer 0#32 s)
  | ignoresDoutHi {r : Request} {w : Word} (hw : writtenRegister (.host r) = some (.doutHi, w)) :
      EventEffect s (.host r) (answer 0#32 s)
  | clears {r : Request} {w : Word} (hw : writtenRegister (.host r) = some (.status, w)) :
      EventEffect s (.host r) (answer 0#32 (clearStatus w s))
  | drops {r : Request} {q : Reg} {w : Word} (hw : writtenRegister (.host r) = some (q, w)) (hq : q.guarded = true)
      (hb : s.busy = true) : EventEffect s (.host r) (busyDrop s)
  | setsKeyLo {r : Request} {w : Word} (hw : writtenRegister (.host r) = some (.keyLo, w)) (hb : s.busy = false) :
      EventEffect s (.host r) (answer 0#32 { s with key := setLowHalf s.key w })
  | setsKeyHi {r : Request} {w : Word} (hw : writtenRegister (.host r) = some (.keyHi, w)) (hb : s.busy = false) :
      EventEffect s (.host r) (answer 0#32 { s with key := setHighHalf s.key w })
  | setsDinLo {r : Request} {w : Word} (hw : writtenRegister (.host r) = some (.dinLo, w)) (hb : s.busy = false) :
      EventEffect s (.host r) (answer 0#32 { s with din := setLowHalf s.din w })
  | setsDinHi {r : Request} {w : Word} (hw : writtenRegister (.host r) = some (.dinHi, w)) (hb : s.busy = false) :
      EventEffect s (.host r) (answer 0#32 { s with din := setHighHalf s.din w })
  | nop {r : Request} {w : Word} (hw : writtenRegister (.host r) = some (.ctrl, w)) (hc : commandOf w = some .nop)
      (hb : s.busy = false) : EventEffect s (.host r) (answer 0#32 s)
  | starts {r : Request} {w : Word} (m : Mode) (hw : writtenRegister (.host r) = some (.ctrl, w))
      (hc : commandOf w = some m.command) (hb : s.busy = false) : EventEffect s (.host r) (answer 0#32 (start m s))
  | raisesErrCmd {r : Request} {w : Word} (hw : writtenRegister (.host r) = some (.ctrl, w)) (hc : commandOf w = none)
      (hb : s.busy = false) : EventEffect s (.host r) (answer 0#32 (raiseCommandError s))

theorem eventResult_of_written {r : Request} {q : Reg} {w : Word} (hw : writtenRegister (.host r) = some (q, w))
    (s : State) : eventResult (.host r) s = registerWrite q w s := by
  simp only [writtenRegister] at hw
  split at hw
  · rename_i h
    cases hw
    exact transactionResult_write h.1 h.2 s
  · cases hw

theorem eventResult_of_notWritten {r : Request} (hw : writtenRegister (.host r) = none) (s : State) :
    ∃ p, eventResult (.host r) s = { s with resp := some p } := by
  cases ha : r.transaction.admitted with
  | false => exact ⟨_, transactionResult_notAdmitted ha s⟩
  | true =>
    have hread : r.transaction.wr = false := by simpa [writtenRegister, ha] using hw
    exact ⟨_, transactionResult_read ha hread s⟩

theorem registerWrite_ctrl_effect {r : Request} {w : Word} (hw : writtenRegister (.host r) = some (.ctrl, w))
    {s : State} (hb : s.busy = false) : EventEffect s (.host r) (registerWrite .ctrl w s) := by
  rw [registerWrite, writeWhenIdle_of_idle hb]
  cases hc : commandOf w with
  | none => exact .raisesErrCmd hw hc hb
  | some c =>
    cases c with
    | nop => exact .nop hw hc hb
    | perm => exact .starts .perm hw hc hb
    | enc => exact .starts .enc hw hc hb

theorem registerWrite_effect {r : Request} {q : Reg} {w : Word} (hw : writtenRegister (.host r) = some (q, w))
    (s : State) : EventEffect s (.host r) (registerWrite q w s) := by
  by_cases hdrop : q.guarded = true ∧ s.busy = true
  · rw [registerWrite_of_busy hdrop.1 hdrop.2]
    exact .drops hw hdrop.1 hdrop.2
  · have hidle (hq : q.guarded = true) : s.busy = false := by simpa [hq] using hdrop
    cases q with
    | keyLo =>
      rw [registerWrite, writeWhenIdle_of_idle (hidle rfl)]
      exact .setsKeyLo hw (hidle rfl)
    | keyHi =>
      rw [registerWrite, writeWhenIdle_of_idle (hidle rfl)]
      exact .setsKeyHi hw (hidle rfl)
    | dinLo =>
      rw [registerWrite, writeWhenIdle_of_idle (hidle rfl)]
      exact .setsDinLo hw (hidle rfl)
    | dinHi =>
      rw [registerWrite, writeWhenIdle_of_idle (hidle rfl)]
      exact .setsDinHi hw (hidle rfl)
    | ctrl => exact registerWrite_ctrl_effect hw (hidle rfl)
    | doutLo => exact .ignoresDoutLo hw
    | doutHi => exact .ignoresDoutHi hw
    | status => exact .clears hw

theorem eventResult_effect (e : Event) (s : State) : EventEffect s e (eventResult e s) := by
  cases e with
  | reset => exact .reset
  | core =>
    rw [eventResult]
    rcases coreStep_cases (noResponse s) with ⟨hb, h⟩ | ⟨hb, hi, h⟩ | ⟨hb, hi, h⟩ <;> rw [h]
    · exact .coreRests hb
    · exact .coreAdvances hb hi
    · exact .coreCompletes hb hi
  | host r =>
    cases hw : writtenRegister (.host r) with
    | none =>
      obtain ⟨p, h⟩ := eventResult_of_notWritten hw s
      rw [h]
      exact .responds p hw
    | some p =>
      rw [eventResult_of_written hw]
      exact registerWrite_effect hw s

/-! ## The inversion of a step -/

@[simp] theorem withSchedule_key (es : List Event) (s : State) : (withSchedule es s).key = s.key := rfl
@[simp] theorem withSchedule_din (es : List Event) (s : State) : (withSchedule es s).din = s.din := rfl
@[simp] theorem withSchedule_dout (es : List Event) (s : State) : (withSchedule es s).dout = s.dout := rfl
@[simp] theorem withSchedule_done (es : List Event) (s : State) : (withSchedule es s).done = s.done := rfl
@[simp] theorem withSchedule_errCmd (es : List Event) (s : State) : (withSchedule es s).errCmd = s.errCmd := rfl
@[simp] theorem withSchedule_errBusy (es : List Event) (s : State) : (withSchedule es s).errBusy = s.errBusy := rfl

theorem step_eq_withSchedule (s : State) :
    step s = .next (withSchedule s.events.tail (eventResult (nextEvent s) s)) := by
  rw [← eventResult_withSchedule]
  exact step_eq s

/-- A step has the effect of the next event, and takes it off the schedule. -/
theorem effect_of_step {s t : State} (h : step s = .next t) :
    ∃ u, EventEffect s (nextEvent s) u ∧ t = withSchedule s.events.tail u := by
  rw [step_eq_withSchedule] at h
  cases h
  exact ⟨_, eventResult_effect _ s, rfl⟩

theorem step_effect {s : State} {e : Event} {rest : List Event} (h : s.events = e :: rest) :
    ∃ u, step s = .next (withSchedule rest u) ∧ EventEffect s e u := by
  refine ⟨eventResult e s, ?_, eventResult_effect e s⟩
  rw [step_eq_withSchedule, nextEvent, h, List.tail_cons]

end Machine

end Sys2Proof
end

section
/-! # The status invariant, and what every step does to each register -/

namespace Sys2Proof.Machine

/-! ## The invariant of 10_state.md R36 and R37 -/

/-- Settles O24. -/
theorem resetStateIsZero : Obligations.ResetStateIsZero :=
  ⟨rfl, rfl, rfl, rfl, rfl, rfl, rfl, rfl, rfl, rfl, rfl, fun r => by cases r <;> decide⟩

/-- Settles O32. -/
theorem resetHasStatusInvariant : Obligations.ResetHasStatusInvariant :=
  ⟨fun _ => rfl, fun h => absurd h.1 Bool.false_ne_true⟩

theorem EventEffect.keeps_statusInvariant {s t : State} {e : Event} (h : EventEffect s e t) (hs : StatusInvariant s) :
    StatusInvariant t := by
  have ⟨hi, hexclusive⟩ := hs
  cases h with
  | reset => exact resetHasStatusInvariant
  | coreAdvances hb => exact ⟨fun hidle => Bool.noConfusion (hb.symm.trans hidle), hexclusive⟩
  | coreCompletes => exact ⟨fun _ => rfl, fun hboth => absurd hboth.1 Bool.false_ne_true⟩
  | starts => exact ⟨fun _ => rfl, fun hboth => absurd hboth.2 Bool.false_ne_true⟩
  | clears =>
    refine ⟨hi, fun ⟨hbusy, hdone⟩ => hexclusive ⟨hbusy, ?_⟩⟩
    rw [answer_done, clearStatus_done, Bool.and_eq_true] at hdone
    exact hdone.1
  | _ => exact hs

/-- Settles O31, by the inversion of the step. -/
theorem stepKeepsStatusInvariant : Obligations.StepKeepsStatusInvariant := by
  intro s t hs hstep
  obtain ⟨u, heffect, rfl⟩ := effect_of_step hstep
  exact heffect.keeps_statusInvariant hs

/-- What every step keeps holds after any number of steps. -/
theorem runSteps_keeps {P : State → Prop} (hkeeps : ∀ s t, P s → step s = .next t → P t) (n : Nat) {s t : State}
    (hs : P s) (hrun : runSteps n s = .next t) : P t := by
  induction n generalizing s with
  | zero =>
    cases hrun
    exact hs
  | succ n ih =>
    rw [runSteps_succ_of_next n (step_eq s)] at hrun
    exact ih (hkeeps s _ hs (step_eq s)) hrun

/-- Settles O33. -/
theorem reachableStatesHaveStatusInvariant : Obligations.ReachableStatesHaveStatusInvariant :=
  fun n _ _ => runSteps_keeps stepKeepsStatusInvariant n resetHasStatusInvariant

/-! ## The next value of each register -/

/-- Settles O25. -/
theorem busyNextValue : Obligations.BusyNextValue := by
  intro s e rest hs
  obtain ⟨u, hstep, heffect⟩ := step_effect hs
  refine ⟨_, hstep, ?_⟩
  rw [withSchedule_busy]
  cases heffect with
  | reset => rfl
  | coreRests hb => simp [hb]
  | coreAdvances hb hi | coreCompletes hb hi => simp [hb, hi]
  | starts m hw hc hb => simp [hb, startRequested_eq, dataWritten, hw, hc]
  | drops _ _ hb => simp [hb]
  | nop hw hc hb | raisesErrCmd hw hc hb => simp [hb, startRequested_eq, dataWritten, hw, hc, startedBy]
  | setsKeyLo hw | setsKeyHi hw | setsDinLo hw | setsDinHi hw | ignoresDoutLo hw | ignoresDoutHi hw | clears hw
  | responds _ hw => cases hb : s.busy <;> simp [hb, startRequested_eq, dataWritten, hw]

/-- Settles O26. -/
theorem doneNextValue : Obligations.DoneNextValue := by
  intro s e rest hs
  obtain ⟨u, hstep, heffect⟩ := step_effect hs
  refine ⟨_, hstep, ?_⟩
  rw [withSchedule_done]
  cases heffect with
  | reset => rfl
  | coreRests hb => simp [hb]
  | coreAdvances hb hi | coreCompletes hb hi => simp [hb, hi]
  | starts m hw hc hb => simp [hb, startRequested_eq, dataWritten, hw, hc]
  | drops hw hq hb => simp [hb, writeTo_status, dataWritten_status_of_guarded hw hq]
  | nop hw hc | raisesErrCmd hw hc => simp [startRequested_eq, writeTo_status, dataWritten, hw, hc, startedBy]
  | setsKeyLo hw | setsKeyHi hw | setsDinLo hw | setsDinHi hw | ignoresDoutLo hw | ignoresDoutHi hw | clears hw
  | responds _ hw => simp [startRequested_eq, writeTo_status, dataWritten, hw]

/-- Settles O27. -/
theorem errCmdNextValue : Obligations.ErrCmdNextValue := by
  intro s e rest hs
  obtain ⟨u, hstep, heffect⟩ := step_effect hs
  refine ⟨_, hstep, ?_⟩
  rw [withSchedule_errCmd]
  cases heffect with
  | reset => rfl
  | coreRests | coreAdvances | coreCompletes => simp
  | drops hw hq hb => simp [hb, writeTo_status, dataWritten_status_of_guarded hw hq]
  | raisesErrCmd hw hc hb => simp [hb, illegalCommandWritten_eq, dataWritten, hw, hc]
  | nop hw hc | starts _ hw hc => simp [illegalCommandWritten_eq, writeTo_status, dataWritten, hw, hc]
  | setsKeyLo hw | setsKeyHi hw | setsDinLo hw | setsDinHi hw | ignoresDoutLo hw | ignoresDoutHi hw | clears hw
  | responds _ hw => simp [illegalCommandWritten_eq, writeTo_status, dataWritten, hw]

/-- Settles O28. -/
theorem errBusyNextValue : Obligations.ErrBusyNextValue := by
  intro s e rest hs
  obtain ⟨u, hstep, heffect⟩ := step_effect hs
  refine ⟨_, hstep, ?_⟩
  rw [withSchedule_errBusy]
  cases heffect with
  | reset => rfl
  | coreRests | coreAdvances | coreCompletes => simp
  | drops hw hq hb => simp [hb, guardedWrite_eq, hw, hq]
  | clears hw | ignoresDoutLo hw | ignoresDoutHi hw | responds _ hw =>
    simp [guardedWrite_eq, writeTo_status, dataWritten, hw, Reg.guarded]
  | setsKeyLo hw hb | setsKeyHi hw hb | setsDinLo hw hb | setsDinHi hw hb | nop hw _ hb | starts _ hw _ hb
  | raisesErrCmd hw _ hb => simp [hb, writeTo_status, dataWritten, hw]

/-- Settles O29. -/
theorem operandRegistersNextValue : Obligations.OperandRegistersNextValue := by
  intro s e rest hs
  obtain ⟨u, hstep, heffect⟩ := step_effect hs
  refine ⟨_, hstep, ?_⟩
  rw [withSchedule_key, withSchedule_din]
  cases heffect with
  | reset => exact ⟨rfl, rfl⟩
  | coreRests | coreAdvances | coreCompletes => simp
  | drops _ _ hb => simp [hb]
  | setsKeyLo hw hb | setsKeyHi hw hb | setsDinLo hw hb | setsDinHi hw hb =>
    simp [hb, writeTo_keyLo, writeTo_keyHi, writeTo_dinLo, writeTo_dinHi, dataWritten, hw, setLowHalf, setHighHalf,
      joinHalves, highHalf, lowHalf]
  | clears hw | ignoresDoutLo hw | ignoresDoutHi hw | responds _ hw | nop hw | starts _ hw | raisesErrCmd hw =>
    simp [writeTo_keyLo, writeTo_keyHi, writeTo_dinLo, writeTo_dinHi, dataWritten, hw]

theorem effectiveKey_eq (m : Mode) (k : Block) : effectiveKey m k = if m = .enc then k else 0#64 := by
  cases m <;> rfl

/-- Settles O30. -/
theorem doutNextValue : Obligations.DoutNextValue := by
  intro s e rest hs
  obtain ⟨u, hstep, heffect⟩ := step_effect hs
  refine ⟨_, hstep, ?_⟩
  rw [withSchedule_dout]
  cases heffect with
  | reset => rfl
  | coreCompletes hb hi => simp [hb, hi, effectiveKey_eq]
  | coreRests hb => simp [hb]
  | coreAdvances _ hi => simp [hi]
  | _ => simp

theorem EventEffect.operands_eq_of_busy {s t : State} {e : Event} (h : EventEffect s e t) (hbusy : s.busy = true)
    (he : e ≠ .reset) : t.key = s.key ∧ t.din = s.din := by
  cases h with
  | reset => exact absurd rfl he
  | setsKeyLo _ hb | setsKeyHi _ hb | setsDinLo _ hb | setsDinHi _ hb =>
    exact absurd (hb.symm.trans hbusy) Bool.false_ne_true
  | _ => exact ⟨rfl, rfl⟩

theorem nextEvent_ne_reset {s : State} (h : s.events.head? ≠ some .reset) : nextEvent s ≠ .reset := by
  rw [nextEvent]
  split
  · nofun
  · rename_i e _ hs
    simpa [hs] using h

/-- Settles O34. -/
theorem operandsStandWhileBusy : Obligations.OperandsStandWhileBusy := by
  intro s t hbusy hreset hstep
  obtain ⟨u, heffect, rfl⟩ := effect_of_step hstep
  exact heffect.operands_eq_of_busy hbusy (nextEvent_ne_reset hreset)

end Sys2Proof.Machine
end

section
/-! # An operation in progress, and the result it leaves -/

namespace Sys2Proof.Machine

/-! ## From an accepted start to the 32nd Core step -/

theorem dataWritten_eq_some_iff {q : Reg} {e : Event} {w : Word} :
    dataWritten q e = some w ↔ writtenRegister e = some (q, w) := by
  rcases hw : writtenRegister e with _ | ⟨p, v⟩
  · simp [dataWritten, hw]
  · by_cases hp : p = q <;> simp [dataWritten, hw, hp]

theorem startedBy_eq_some_iff {c : Command} {m : Mode} : startedBy c = some m ↔ c = m.command := by
  cases c <;> cases m <;> decide

theorem startRequested_eq_some_iff {e : Event} {m : Mode} :
    startRequested e = some m ↔ writtenRegister e = some (.ctrl, m.command.word) := by
  simp only [startRequested_eq, Option.bind_eq_some_iff, dataWritten_eq_some_iff, startedBy_eq_some_iff,
    commandOf_eq_some_iff]
  constructor
  · rintro ⟨_, hw, _, rfl, rfl⟩
    exact hw
  · exact fun hw => ⟨_, hw, _, rfl, rfl⟩

/-- R107, R131: what an accepted start does. -/
theorem eventResult_start {e : Event} {m : Mode} {s : State} (hb : s.busy = false)
    (hstart : startRequested e = some m) : eventResult e s = answer 0#32 (start m s) := by
  have hw := startRequested_eq_some_iff.1 hstart
  cases e with
  | core | reset => cases hw
  | host r =>
    rw [eventResult_of_written hw, registerWrite, writeWhenIdle_of_idle hb, commandOf_eq_some_iff.2 rfl]
    cases m <;> rfl

theorem inOperation_start (m : Mode) (s : State) : InOperation m s.key s.din (answer 0#32 (start m s)) :=
  ⟨rfl, rfl, rfl, rfl, rfl⟩

theorem toNat_add_one_of_ne {i : BitVec 5} (hi : i ≠ 31#5) : (i + 1#5).toNat = i.toNat + 1 := by
  bv_omega

/-- R108: one more mixing step. -/
theorem inOperation_advance {m : Mode} {k x : Block} {s : State} (h : InOperation m k x s) (hi : s.i ≠ 31#5) :
    InOperation m k x (advance s) := by
  obtain ⟨hbusy, hmode, hkey, hdin, hhalves⟩ := h
  refine ⟨hbusy, hmode, hkey, hdin, ?_⟩
  rw [advance_i, toNat_add_one_of_ne hi]
  simp only [halvesAfter, mixSteps] at hhalves ⊢
  rw [← hhalves, BitVec.ofNat_toNat, BitVec.setWidth_eq]
  rfl

/-- Until its last Core step, every event but reset leaves an operation in progress, and only the Core moves it. -/
theorem EventEffect.keeps_inOperation {m : Mode} {k x : Block} {s t : State} {e : Event} (h : EventEffect s e t)
    (hop : InOperation m k x s) (he : e ≠ .reset) (hc : completes e s = false) :
    InOperation m k x t ∧ t.i.toNat = s.i.toNat + [e].count .core ∧ (s.done = false → t.done = false) := by
  have hbusy : s.busy = true := hop.1
  cases h with
  | reset => exact absurd rfl he
  | coreCompletes hb hi => simp [hb, hi] at hc
  | coreAdvances hb hi =>
    exact ⟨inOperation_advance (s := noResponse s) hop hi, toNat_add_one_of_ne hi, id⟩
  | clears => exact ⟨hop, by simp, fun hdone => by simp [hdone]⟩
  | responds | ignoresDoutLo | ignoresDoutHi | drops => exact ⟨hop, by simp, id⟩
  | coreRests hb | setsKeyLo _ hb | setsKeyHi _ hb | setsDinLo _ hb | setsDinHi _ hb | nop _ _ hb | starts _ _ _ hb
  | raisesErrCmd _ _ hb => exact absurd (hb.symm.trans hbusy) Bool.false_ne_true

theorem EventEffect.dout_eq {s t : State} {e : Event} (h : EventEffect s e t) (he : e ≠ .reset)
    (hc : completes e s = false) : t.dout = s.dout := by
  cases h with
  | reset => exact absurd rfl he
  | coreCompletes hb hi => simp [hb, hi] at hc
  | _ => rfl

theorem runSteps_withSchedule (es : List Event) (s : State) :
    runSteps es.length (withSchedule es s) = .next (withSchedule [] (eventsResult es s)) := by
  simpa using runSteps_withSchedule_append es [] s

theorem count_core_cons (e : Event) (es : List Event) :
    (e :: es).count .core = [e].count .core + es.count .core := by
  rw [← List.count_append, List.singleton_append]

theorem completes_eq_false {e : Event} {s : State} (h : s.busy = true → s.i.toNat + [e].count .core < 32) :
    completes e s = false := by
  cases e with
  | host r => exact completes_host r s
  | reset => rfl
  | core =>
    rw [completes_core, Bool.and_eq_false_imp]
    intro hb
    have hi : s.i ≠ 31#5 := by
      intro hi
      simpa [hi] using h hb
    simpa using hi

theorem inOperation_eventsResult {m : Mode} {k x : Block} {es : List Event} {s : State} (hop : InOperation m k x s)
    (hreset : .reset ∉ es) (hcount : s.i.toNat + es.count .core < 32) :
    InOperation m k x (eventsResult es s) ∧ (eventsResult es s).i.toNat = s.i.toNat + es.count .core ∧
      (s.done = false → (eventsResult es s).done = false) ∧ (eventsResult es s).dout = s.dout := by
  induction es generalizing s with
  | nil => exact ⟨hop, rfl, id, rfl⟩
  | cons e es ih =>
    rw [List.mem_cons, not_or] at hreset
    rw [count_core_cons, ← Nat.add_assoc] at hcount ⊢
    have hc : completes e s = false := completes_eq_false fun _ => by omega
    have heffect := eventResult_effect e s
    obtain ⟨hop', hi, hdone⟩ := heffect.keeps_inOperation hop (Ne.symm hreset.1) hc
    have hdout := heffect.dout_eq (Ne.symm hreset.1) hc
    rw [← hi] at hcount ⊢
    obtain ⟨hop'', hi'', hdone'', hdout''⟩ := ih hop' hreset.2 hcount
    exact ⟨hop'', hi'', fun h => hdone'' (hdone h), hdout''.trans hdout⟩

/-- Settles O37, by induction on the events after the start. -/
theorem operationInProgressHoldsMixedHalves : Obligations.OperationInProgressHoldsMixedHalves := by
  intro m s e es hb hstart hreset hcount
  have hi : (start m s).i.toNat + es.count .core = es.count .core := Nat.zero_add _
  obtain ⟨hop, hcore, hdone, hdout⟩ := inOperation_eventsResult (inOperation_start m s) hreset (hi.symm ▸ hcount)
  have hrun := runSteps_withSchedule (e :: es) s
  rw [eventsResult, eventResult_start hb hstart] at hrun
  exact ⟨_, hrun, hop, hcore.trans hi, hdone rfl, hdout⟩

/-! ## The result stands -/

theorem completesNone_cons_iff {e : Event} {es : List Event} {s : State} :
    CompletesNone (e :: es) s ↔ completes e s = false ∧ CompletesNone es (eventResult e s) := by
  have hnext (n : Nat) : runSteps (n + 1) (withSchedule (e :: es) s) = runSteps n (withSchedule es (eventResult e s)) :=
    runSteps_succ_of_next n (step_withSchedule_cons e es s)
  constructor
  · intro h
    refine ⟨h 0 _ (Nat.succ_pos _) rfl, fun n u hn hu => h (n + 1) u (Nat.succ_lt_succ hn) ((hnext n).trans hu)⟩
  · rintro ⟨he, hes⟩ n u hn hu
    cases n with
    | zero =>
      cases hu
      exact he
    | succ n => exact hes n u (Nat.lt_of_succ_lt_succ hn) ((hnext n).symm.trans hu)

/-- `n` Core steps are too few for an operation to complete, be it the one in progress or one still to start. -/
def TooFewCoreSteps (n : Nat) (s : State) : Prop := n < 32 ∧ (s.busy = true → s.i.toNat + n < 32)

theorem EventEffect.keeps_tooFewCoreSteps {s t : State} {e : Event} {n : Nat} (h : EventEffect s e t)
    (hfew : TooFewCoreSteps ([e].count .core + n) s) : TooFewCoreSteps n t := by
  obtain ⟨hn, hleft⟩ := hfew
  refine ⟨by omega, fun hbusy => ?_⟩
  cases h with
  | reset | coreCompletes => cases hbusy
  | starts => simpa using hn
  | coreAdvances hb hi =>
    rw [advance_i, noResponse_i, toNat_add_one_of_ne hi, Nat.add_assoc]
    exact hleft hb
  | coreRests hb => exact absurd (hb.symm.trans hbusy) Bool.false_ne_true
  | _ => simpa using hleft hbusy

theorem completesNone_of_tooFewCoreSteps {es : List Event} {s : State} (h : TooFewCoreSteps (es.count .core) s) :
    CompletesNone es s := by
  induction es generalizing s with
  | nil => exact fun n u hn _ => absurd hn (Nat.not_lt_zero n)
  | cons e es ih =>
    rw [count_core_cons] at h
    have hc : completes e s = false := completes_eq_false fun hb => by
      have := h.2 hb
      omega
    exact completesNone_cons_iff.2 ⟨hc, ih ((eventResult_effect e s).keeps_tooFewCoreSteps h)⟩

theorem eventsResult_dout_eq {es : List Event} {s : State} (hreset : .reset ∉ es) (hnone : CompletesNone es s) :
    (eventsResult es s).dout = s.dout := by
  induction es generalizing s with
  | nil => rfl
  | cons e es ih =>
    rw [List.mem_cons, not_or] at hreset
    obtain ⟨he, hes⟩ := completesNone_cons_iff.1 hnone
    exact (ih hreset.2 hes).trans ((eventResult_effect e s).dout_eq (Ne.symm hreset.1) he)

/-- Settles O39. -/
theorem resultStandsUntilNextCompletion : Obligations.ResultStandsUntilNextCompletion := by
  intro m k x s es hinv hdone
  obtain ⟨hidle, hresult⟩ := hinv.2 hdone
  refine ⟨fun hcount => completesNone_of_tooFewCoreSteps ⟨hcount, fun hb => ?_⟩, fun hreset hnone => ?_⟩
  · exact absurd (hidle.symm.trans hb) Bool.false_ne_true
  · have hdout := (eventsResult_dout_eq hreset hnone).trans hresult
    refine ⟨withSchedule [] (eventsResult es s), runSteps_withSchedule es s, hdout, ?_, ?_⟩
    · rw [← hdout]
      rfl
    · rw [← hdout]
      rfl

end Sys2Proof.Machine
end

section
/-! # The working halves of an idle block -/

namespace Sys2Proof.Machine

/-- `s` with other working halves. -/
def withHalves (a b : Word) (s : State) : State := { s with h := a, l := b }

theorem SameButHalves.eq_withHalves {s s' : State} (h : SameButHalves s s') : s' = withHalves s'.h s'.l s := h.symm

/-- Two states that are equal, or idle and different in the working halves alone. -/
def SameButIdleHalves (s s' : State) : Prop := s' = s ∨ s.busy = false ∧ SameButHalves s s'

theorem SameButIdleHalves.sameButHalves {s s' : State} (h : SameButIdleHalves s s') : SameButHalves s s' := by
  rcases h with rfl | ⟨_, hhalves⟩
  · rfl
  · exact hhalves

/-- An idle block's writes: a start overwrites the working halves, and the others pass them by. -/
theorem registerWrite_withHalves {s : State} (hb : s.busy = false) (q : Reg) (w a b : Word) :
    SameButIdleHalves (registerWrite q w s) (registerWrite q w (withHalves a b s)) := by
  have hb' : (withHalves a b s).busy = false := hb
  cases q with
  | doutLo | doutHi | status => exact .inr ⟨hb, rfl⟩
  | keyLo | keyHi | dinLo | dinHi =>
    rw [registerWrite, registerWrite, writeWhenIdle_of_idle hb, writeWhenIdle_of_idle hb']
    exact .inr ⟨hb, rfl⟩
  | ctrl =>
    rw [registerWrite, registerWrite, writeWhenIdle_of_idle hb, writeWhenIdle_of_idle hb']
    rcases commandOf w with _ | _ | _ | _
    · exact .inr ⟨hb, rfl⟩
    · exact .inr ⟨hb, rfl⟩
    · exact .inl rfl
    · exact .inl rfl

theorem windowRead_withHalves (q : Reg) (a b : Word) (s : State) :
    windowRead q (withHalves a b s) = windowRead q s := by
  cases q <;> rfl

theorem transactionResult_withHalves {s : State} (hb : s.busy = false) (t : Transaction) (a b : Word) :
    SameButIdleHalves (transactionResult t s) (transactionResult t (withHalves a b s)) := by
  cases ha : t.admitted with
  | false =>
    rw [transactionResult_notAdmitted ha, transactionResult_notAdmitted ha]
    exact .inr ⟨hb, rfl⟩
  | true =>
    cases hw : t.wr with
    | false =>
      rw [transactionResult_read ha hw, transactionResult_read ha hw, windowRead_withHalves]
      exact .inr ⟨hb, rfl⟩
    | true =>
      rw [transactionResult_write ha hw, transactionResult_write ha hw]
      exact registerWrite_withHalves hb _ _ a b

theorem eventResult_core_of_idle {s : State} (hb : s.busy = false) : eventResult .core s = noResponse s := by
  simp [eventResult, coreStep, hb]

theorem SameButIdleHalves.eventResult {s s' : State} (h : SameButIdleHalves s s') (e : Event) :
    SameButIdleHalves (eventResult e s) (eventResult e s') := by
  rcases h with rfl | ⟨hb, hhalves⟩
  · exact .inl rfl
  · rw [hhalves.eq_withHalves]
    cases e with
    | host r => exact transactionResult_withHalves hb r.transaction _ _
    | reset => exact .inl rfl
    | core =>
      rw [eventResult_core_of_idle hb, eventResult_core_of_idle (s := withHalves s'.h s'.l s) hb]
      exact .inr ⟨hb, rfl⟩

theorem SameButIdleHalves.withSchedule {s s' : State} (h : SameButIdleHalves s s') (es : List Event) :
    SameButIdleHalves (withSchedule es s) (withSchedule es s') := by
  rcases h with rfl | ⟨hb, hhalves⟩
  · exact .inl rfl
  · rw [hhalves.eq_withHalves]
    exact .inr ⟨hb, rfl⟩

theorem SameButIdleHalves.runSteps (n : Nat) {s s' : State} (h : SameButIdleHalves s s') :
    ∃ t t', runSteps n s = .next t ∧ runSteps n s' = .next t' ∧ SameButIdleHalves t t' := by
  induction n generalizing s s' with
  | zero => exact ⟨s, s', rfl, rfl, h⟩
  | succ n ih =>
    have hevents : s'.events = s.events := (congrArg State.events h.sameButHalves).symm
    obtain ⟨t, t', ht, ht', htt'⟩ := ih ((h.eventResult (nextEvent s)).withSchedule s.events.tail)
    refine ⟨t, t', (runSteps_succ_of_next n (step_eq_withSchedule s)).trans ht, ?_, htt'⟩
    rw [runSteps_succ_of_next n (step_eq_withSchedule s'), nextEvent, hevents]
    exact ht'

/-- Settles O45, by the invariant `SameButIdleHalves` of the pair of runs. -/
theorem idleWorkingHalvesAreIrrelevant : Obligations.IdleWorkingHalvesAreIrrelevant := by
  intro s s' n hsame hidle
  obtain ⟨t, t', ht, ht', htt'⟩ := SameButIdleHalves.runSteps n (.inr ⟨hidle, hsame⟩)
  refine ⟨t, t', ht, ht', htt'.sameButHalves, fun hbusy => ?_⟩
  rcases htt' with heq | ⟨hb, _⟩
  · exact heq.symm
  · exact absurd (hb.symm.trans hbusy) Bool.false_ne_true

end Sys2Proof.Machine
end

section
/-! # The operation invariant -/

namespace Sys2Proof.Machine

/-- The last mixing step, combined and whitened, is the operation's result (40_permutation.md R109, R111;
41_block_cipher.md R132). -/
theorem complete_dout_of_inOperation {m : Mode} {k x : Block} {s : State} (h : InOperation m k x s) (hi : s.i = 31#5) :
    (complete s).dout = operationResult m k x := by
  obtain ⟨-, hmode, hkey, -, hhalves⟩ := h
  have hlast : mixStep s.h s.l 31#5 = halvesAfter m k x 32 := by
    have h31 : (s.h, s.l) = halvesAfter m k x 31 := by
      rw [hhalves, hi]
      rfl
    rw [halvesAfter, mixSteps, ← halvesAfter, ← h31]
  rw [complete_dout, hlast, hmode, hkey]
  cases m with
  | perm => simp [halvesAfter, effectiveKey, operationResult, permute]
  | enc =>
    rw [operationResult, encryptBlock, BitVec.xor_comm k x]
    rfl

theorem EventEffect.keeps_operationInvariant {m : Mode} {k x : Block} {s t : State} {e : Event} (h : EventEffect s e t)
    (hinv : OperationInvariant m k x s) (he : e ≠ .reset) (hstart : s.busy = false → startRequested e = none) :
    OperationInvariant m k x t := by
  have ⟨hop, hdone⟩ := hinv
  cases h with
  | reset => exact absurd rfl he
  | starts _ hw hc hb => simp [startRequested_eq, dataWritten, hw, hc, hb] at hstart
  | coreAdvances hb hi => exact ⟨fun _ => inOperation_advance (s := noResponse s) (hop hb) hi, hdone⟩
  | coreCompletes hb hi =>
    exact ⟨fun hbusy => absurd hbusy Bool.false_ne_true,
      fun _ => ⟨rfl, complete_dout_of_inOperation (s := noResponse s) (hop hb) hi⟩⟩
  | clears =>
    refine ⟨hop, fun hstill => hdone ?_⟩
    rw [answer_done, clearStatus_done, Bool.and_eq_true] at hstill
    exact hstill.1
  | setsKeyLo _ hb | setsKeyHi _ hb | setsDinLo _ hb | setsDinHi _ hb =>
    exact ⟨fun hbusy => absurd (hb.symm.trans hbusy) Bool.false_ne_true, hdone⟩
  | _ => exact hinv

/-- What holds of the head of the schedule holds of the next event, if it holds of a Core step (log 2). -/
theorem nextEvent_of_head {P : Event → Prop} {s : State} (hcore : P .core) (h : ∀ e, s.events.head? = some e → P e) :
    P (nextEvent s) := by
  rw [nextEvent]
  split
  · exact hcore
  · rename_i e _ hs
    exact h e (by rw [hs, List.head?_cons])

/-- Settles O36, by the inversion of the step. -/
theorem stepKeepsOperationInvariant : Obligations.StepKeepsOperationInvariant := by
  intro m k x s t hinv hreset hstart hstep
  obtain ⟨u, heffect, rfl⟩ := effect_of_step hstep
  exact heffect.keeps_operationInvariant hinv (nextEvent_ne_reset hreset)
    (nextEvent_of_head (fun _ => startRequested_core) hstart)

end Sys2Proof.Machine
end

section
/-! # The order of the schedule, and what the next event does -/

namespace Sys2Proof.Machine

/-- Settles O46. -/
theorem runPerformsScheduleInOrder : Obligations.RunPerformsScheduleInOrder := by
  intro es rest s
  rw [runSteps_withSchedule_append, runEvents_eq, eventsResult_withSchedule]

/-- Settles O18, one clause for each kind of next event. -/
theorem stepRunsTheNextEvent : Obligations.StepRunsTheNextEvent := by
  intro s
  refine ⟨fun r rest i hs hd => ?_, fun rest hs => ?_, fun rest hs => ?_, fun hs => ?_⟩
  · rw [step_cons hs, eventStep_instr hd]
  · rw [step_cons hs, eventStep_core]
  · rw [step_cons hs, eventStep_reset]
    rfl
  · rw [step_nil hs, eventStep_core]

/-- R55: a size code or an offset that admission refuses. -/
theorem admitted_eq_false_of_size_or_misaligned {t : Transaction} (h : t.size ≠ 0b10#2 ∨ t.off.toNat % 4 ≠ 0) :
    t.admitted = false := by
  rw [← Bool.not_eq_true, Transaction.admitted_iff]
  rintro ⟨hsize, haligned⟩
  rcases h with hne | hmod
  · exact hne hsize
  · apply hmod
    simpa using congrArg BitVec.toNat haligned

/-- Settles O19. -/
theorem busErrorChangesNothing : Obligations.BusErrorChangesNothing := by
  intro s t rest hs hbad
  rw [step_cons hs]
  exact hostStep_notAdmitted (admitted_eq_false_of_size_or_misaligned hbad) _

end Sys2Proof.Machine
end

section
/-! # Accesses done one after another -/

namespace Sys2Proof.Machine

/-- No read returns the response of an earlier transaction (log 3). -/
@[simp] theorem windowRead_answer (r : Reg) (v : Word) (s : State) : windowRead r (answer v s) = windowRead r s := by
  cases r <;> rfl

@[simp] theorem answer_answer (v w : Word) (s : State) : answer v (answer w s) = answer v s := rfl

theorem windowRead_setDinLo (r : Reg) (w : Word) (s : State) :
    windowRead r { s with din := setLowHalf s.din w } = if r = .dinLo then w else windowRead r s := by
  cases r with
  | dinLo => exact lowHalf_join (highHalf s.din) w
  | dinHi => exact highHalf_join (highHalf s.din) w
  | _ => rfl

theorem windowRead_setDinHi (r : Reg) (w : Word) (s : State) :
    windowRead r { s with din := setHighHalf s.din w } = if r = .dinHi then w else windowRead r s := by
  cases r with
  | dinLo => exact lowHalf_join w (lowHalf s.din)
  | dinHi => exact highHalf_join w (lowHalf s.din)
  | _ => rfl

/-- Settles O15. -/
theorem dinReadsBackWhatWasWritten : Obligations.DinReadsBackWhatWasWritten := by
  intro w s r hb
  refine ⟨_, _, exec_writeInstr .dinLo w s, exec_writeInstr .dinHi w s, ?_, ?_⟩
  · rw [exec_readInstr, registerWrite, writeWhenIdle_of_idle hb, windowRead_answer, windowRead_setDinLo]
  · rw [exec_readInstr, registerWrite, writeWhenIdle_of_idle hb, windowRead_answer, windowRead_setDinHi]

@[simp] theorem setLowHalf_setLowHalf (v : Block) (w w' : Word) : setLowHalf (setLowHalf v w) w' = setLowHalf v w' := by
  simp [setLowHalf]

@[simp] theorem setHighHalf_setHighHalf (v : Block) (w w' : Word) :
    setHighHalf (setHighHalf v w) w' = setHighHalf v w' := by
  simp [setHighHalf]

/-- A write that is dropped while BUSY is dropped again; one that is not has its effect again. -/
theorem writeWhenIdle_twice {effect : State → State} {s : State} (hbusy : (effect s).busy = s.busy)
    (heffect : answer 0#32 (effect (answer 0#32 (effect s))) = answer 0#32 (effect s)) :
    writeWhenIdle effect (writeWhenIdle effect s) = writeWhenIdle effect s := by
  rcases writeWhenIdle_cases effect s with ⟨hb, h⟩ | ⟨hb, h⟩
  · rw [h]
    exact writeWhenIdle_of_busy (s := busyDrop s) hb effect
  · rw [h, writeWhenIdle_of_idle (s := answer 0#32 (effect s)) (hbusy.trans hb), heffect]

/-- R57: of all writes, only that of `CTRL` is not idempotent. -/
theorem registerWrite_twice {r : Reg} (hr : r ≠ .ctrl) (w : Word) (s : State) :
    registerWrite r w (registerWrite r w s) = registerWrite r w s := by
  cases r with
  | ctrl => exact absurd rfl hr
  | keyLo | keyHi | dinLo | dinHi => exact writeWhenIdle_twice rfl (by simp [answer])
  | doutLo | doutHi => rfl
  | status => simp [registerWrite, answer, clearStatus]

/-- Settles O16. -/
theorem repeatedAccessIsIdempotent : Obligations.RepeatedAccessIsIdempotent := by
  intro r w s
  refine ⟨⟨_, exec_readInstr r s, ?_⟩, fun hr => ⟨_, exec_writeInstr r w s, ?_⟩⟩
  · rw [exec_readInstr, windowRead_answer, answer_answer]
  · rw [exec_writeInstr, registerWrite_twice hr]

/-- R107: what an idle write of a command word that starts an operation leaves. -/
theorem registerWrite_start {s : State} (hb : s.busy = false) (m : Mode) :
    registerWrite .ctrl m.command.word s = answer 0#32 (start m s) := by
  rw [registerWrite, writeWhenIdle_of_idle hb, commandOf_eq_some_iff.2 rfl]
  cases m <;> rfl

/-- Settles O17. -/
theorem secondStartIsDropped : Obligations.SecondStartIsDropped := by
  intro w s hb hw
  obtain ⟨m, rfl⟩ : ∃ m : Mode, w = m.command.word := by
    rcases hw with rfl | rfl
    · exact ⟨.perm, rfl⟩
    · exact ⟨.enc, rfl⟩
  have hfirst := exec_writeInstr .ctrl m.command.word s
  rw [registerWrite_start hb] at hfirst
  refine ⟨_, hfirst, rfl, rfl, (exec_writeInstr .ctrl m.command.word _).trans ?_⟩
  rw [registerWrite_of_busy rfl rfl]
  rfl

end Sys2Proof.Machine
end

section
/-! # Headers, and the lines of a host program -/

namespace Sys2Proof

/-- R81: the packing in arithmetic. -/
theorem Transaction.header_toNat (t : Transaction) :
    t.header.toNat = 128 * t.wr.toNat + 32 * t.size.toNat + t.off.toNat := by
  simp only [header, BitVec.toNat_append, BitVec.toNat_ofBool]
  rw [← Nat.shiftLeft_add_eq_or_of_lt t.off.isLt, ← Nat.shiftLeft_add_eq_or_of_lt t.size.isLt, Nat.shiftLeft_eq,
    Nat.shiftLeft_eq]
  omega

/-- A header and the write data lose nothing of a transaction (R81). -/
theorem Transaction.ofHeader_header (t : Transaction) : Transaction.ofHeader t.header t.wdata = t := by
  have hoff := t.off.isLt
  have hsize := t.size.isLt
  have hwr : t.header.getLsbD 7 = t.wr := by
    rw [BitVec.getLsbD, Nat.testBit_eq_decide_div_mod_eq, header_toNat]
    cases t.wr <;> simp <;> omega
  have hsz : t.header.extractLsb' 5 2 = t.size := by
    apply BitVec.eq_of_toNat_eq
    rw [BitVec.extractLsb'_toNat, header_toNat, Nat.shiftRight_eq_div_pow]
    omega
  have hof : t.header.extractLsb' 0 5 = t.off := by
    apply BitVec.eq_of_toNat_eq
    rw [BitVec.extractLsb'_toNat, header_toNat, Nat.shiftRight_zero]
    omega
  rw [ofHeader, hwr, hsz, hof]

/-- R88: a header as a sum of bytes. -/
theorem Transaction.header_eq_add (t : Transaction) :
    t.header = (if t.wr then 0x80#8 else 0#8) + t.size.setWidth 8 <<< 5 + t.off.setWidth 8 := by
  apply BitVec.eq_of_toNat_eq
  rw [header_toNat]
  cases t.wr <;> simp [Nat.shiftLeft_eq] <;> omega

namespace Machine

/-- Whatever `BASE` is, the block sees the offset in the window (20_memory.md R51). -/
theorem busAccess_base_add {off n : Nat} {sz : BitVec 2} (hoff : off < 32) (hsz : sizeCode n = some sz) (wr : Bool)
    (v : Word) :
    busAccess wr (Config.base + off) n v = some { wr := wr, size := sz, off := BitVec.ofNat 5 off, wdata := v } := by
  have hwindow : Config.base ≤ Config.base + off ∧ Config.base + off < Config.base + 32 := by omega
  have hlow : BitVec.ofNat 5 (Config.base + off) = BitVec.ofNat 5 off := by
    apply BitVec.eq_of_toNat_eq
    simp only [BitVec.toNat_ofNat, Config.base]
    omega
  rw [busAccess, if_pos hwindow, hsz, hlow, Option.map_some]

/-- R88: the header of an access to the window, as a sum. -/
theorem busAccess_eq_ofHeader {off n : Nat} {sz : BitVec 2} (hoff : off < 32) (hsz : sizeCode n = some sz) (wr : Bool)
    (v : Word) :
    busAccess wr (Config.base + off) n v =
      some (.ofHeader ((if wr then 0x80#8 else 0#8) + sz.setWidth 8 <<< 5 + BitVec.ofNat 8 off) v) := by
  have hoff8 : (BitVec.ofNat 5 off).setWidth 8 = BitVec.ofNat 8 off := by
    apply BitVec.eq_of_toNat_eq
    simp only [BitVec.toNat_setWidth, BitVec.toNat_ofNat]
    omega
  have ht := Transaction.ofHeader_header { wr := wr, size := sz, off := BitVec.ofNat 5 off, wdata := v }
  rw [Transaction.header_eq_add, hoff8] at ht
  exact (busAccess_base_add hoff hsz wr v).trans (congrArg some ht.symm)

/-- Settles O50. -/
theorem hostLinesReachTheirRegisters : Obligations.HostLinesReachTheirRegisters := by
  intro r imm
  have hwindow := busAccess_eq_ofHeader (n := 4) r.offset.isLt rfl
  rw [BitVec.ofNat_toNat] at hwindow
  exact ⟨hwindow true imm, hwindow false 0#32⟩

/-- Settles O51. -/
theorem rawLinesCarrySizeAndOffset : Obligations.RawLinesCarrySizeAndOffset := by
  intro off n imm hoff hn sz
  obtain ⟨code, hcode, hsz⟩ : ∃ code : BitVec 2, sizeCode n = some code ∧ sz = code.setWidth 8 := by
    rcases hn with rfl | rfl | rfl <;> exact ⟨_, rfl, rfl⟩
  have hread := busAccess_eq_ofHeader hoff hcode false 0#32
  rw [if_neg Bool.false_ne_true, BitVec.zero_add] at hread
  rw [hsz]
  exact ⟨busAccess_eq_ofHeader hoff hcode true imm, hread⟩

end Machine

end Sys2Proof
end

section
/-! # The encodings: what the decoder and the encoder are to each other

Every instruction is the read or the write of a register, or a command (42_host_interface.md R150, 30_encoding.md R84),
so the laws of `encode` and `decode` are proved for the three kinds. -/

namespace Sys2Proof

/-! ## The three kinds of instructions -/

theorem Instr.eq_read_or_write_or_command (i : Instr) :
    (∃ r : Reg, i = r.readInstr) ∨ (∃ (r : Reg) (w : Word), i = r.writeInstr w) ∨ ∃ c : Command, i = c.instr := by
  cases i with
  | rdKeyLo => exact .inl ⟨.keyLo, rfl⟩
  | rdKeyHi => exact .inl ⟨.keyHi, rfl⟩
  | rdDinLo => exact .inl ⟨.dinLo, rfl⟩
  | rdDinHi => exact .inl ⟨.dinHi, rfl⟩
  | rdDoutLo => exact .inl ⟨.doutLo, rfl⟩
  | rdDoutHi => exact .inl ⟨.doutHi, rfl⟩
  | rdCtrl => exact .inl ⟨.ctrl, rfl⟩
  | rdStatus => exact .inl ⟨.status, rfl⟩
  | wrKeyLo w => exact .inr (.inl ⟨.keyLo, w, rfl⟩)
  | wrKeyHi w => exact .inr (.inl ⟨.keyHi, w, rfl⟩)
  | wrDinLo w => exact .inr (.inl ⟨.dinLo, w, rfl⟩)
  | wrDinHi w => exact .inr (.inl ⟨.dinHi, w, rfl⟩)
  | wrDoutLo w => exact .inr (.inl ⟨.doutLo, w, rfl⟩)
  | wrDoutHi w => exact .inr (.inl ⟨.doutHi, w, rfl⟩)
  | wrCtrl w => exact .inr (.inl ⟨.ctrl, w, rfl⟩)
  | wrStatus w => exact .inr (.inl ⟨.status, w, rfl⟩)
  | nop => exact .inr (.inr ⟨.nop, rfl⟩)
  | perm => exact .inr (.inr ⟨.perm, rfl⟩)
  | enc => exact .inr (.inr ⟨.enc, rfl⟩)

@[simp] theorem encode_readInstr (r : Reg) : encode r.readInstr = .bus r.readTransaction := by cases r <;> rfl

@[simp] theorem encode_writeInstr (r : Reg) (w : Word) : encode (r.writeInstr w) = .bus (r.writeTransaction w) := by
  cases r <;> rfl

@[simp] theorem encode_command (c : Command) : encode c.instr = .command c.word := by cases c <;> rfl

@[simp] theorem decode_commandWord (c : Command) : decode (.command c.word) = .instr c.instr := by cases c <;> rfl

theorem decode_encode (i : Instr) : decode (encode i) = .instr i := by
  rcases i.eq_read_or_write_or_command with ⟨r, rfl⟩ | ⟨r, w, rfl⟩ | ⟨c, rfl⟩
  · rw [encode_readInstr, decode_readTransaction]
  · rw [encode_writeInstr, decode_writeTransaction]
  · rw [encode_command, decode_commandWord]

/-! ## A request as one number (log 4) -/

/-- A request that carries nothing its table word leaves out: a read has no write data. -/
def Request.ReadsCarryNoData : Request → Prop
  | .bus t => t.wr = false → t.wdata = 0#32
  | .command _ => True

theorem encode_readsCarryNoData (i : Instr) : (encode i).ReadsCarryNoData := by
  rcases i.eq_read_or_write_or_command with ⟨r, rfl⟩ | ⟨r, w, rfl⟩ | ⟨c, rfl⟩
  · rw [encode_readInstr]
    exact fun _ => rfl
  · rw [encode_writeInstr]
    exact fun hread => absurd hread.symm Bool.false_ne_true
  · rw [encode_command]
    trivial

/-- The table's numbering loses nothing of such a request: the header is the number's low byte, and the write data of a
write is what stands above it. -/
theorem Request.ofTableWord_packed {r : Request} (h : r.ReadsCarryNoData) : ofTableWord r.width r.packed = some r := by
  cases r with
  | command w => simp [ofTableWord, width, packed]
  | bus t =>
    cases hwr : t.wr with
    | false =>
      have ht := t.ofHeader_header
      rw [h hwr] at ht
      simp [ofTableWord, width, packed, hwr, ht]
    | true =>
      have hheader : BitVec.ofNat 8 (t.header.toNat + 256 * t.wdata.toNat) = t.header := by
        apply BitVec.eq_of_toNat_eq
        rw [BitVec.toNat_ofNat]
        omega
      have hdata : (t.header.toNat + 256 * t.wdata.toNat) / 256 = t.wdata.toNat := by omega
      simp [ofTableWord, width, packed, hwr, hheader, hdata, t.ofHeader_header]

/-- Settles O1. -/
theorem everyInstructionDecodesFromItsEncoding : Obligations.EveryInstructionDecodesFromItsEncoding := by
  intro i
  refine ⟨decode_encode i, ?_⟩
  rw [decodeTableWord, Request.ofTableWord_packed (encode_readsCarryNoData i), Option.bind_some, decode_encode]
  rfl

/-! ## Which transactions decode, and to what -/

/-- R150: admission is all that decoding asks. -/
theorem decode_bus_eq_instr_iff {t : Transaction} {i : Instr} :
    decode (.bus t) = .instr i ↔
      t.admitted = true ∧
        (if t.wr then (Reg.ofOffset t.off).writeInstr t.wdata else (Reg.ofOffset t.off).readInstr) = i := by
  rw [decode, decodeTransaction]
  cases t.admitted <;> simp

/-- R55: admission in the arithmetic of offsets. -/
theorem Transaction.admitted_iff_aligned (t : Transaction) :
    t.admitted = true ↔ t.size = 0b10#2 ∧ t.off.toNat % 4 = 0 := by
  have haligned : t.off.extractLsb' 0 2 = 0b00#2 ↔ t.off.toNat % 4 = 0 := by simp [BitVec.toNat_eq]
  rw [admitted_iff, haligned, sizeWord]

/-- Settles O4. -/
theorem onlyAlignedWordsDecode : Obligations.OnlyAlignedWordsDecode := by
  intro t
  simp only [decode_bus_eq_instr_iff, exists_and_left, exists_eq', and_true, t.admitted_iff_aligned]

/-- Settles O6: an admitted transaction is the whole-word access of the register that its offset selects. -/
theorem decodedTransactionReencodes : Obligations.DecodedTransactionReencodes := by
  rintro ⟨wr, size, off, wdata⟩ i hdecode
  obtain ⟨hadmitted, rfl⟩ := decode_bus_eq_instr_iff.1 hdecode
  obtain rfl : size = sizeWord := ((Transaction.admitted_iff _).1 hadmitted).1
  have hoff : (Reg.ofOffset off).offset = off := Transaction.admitted_off hadmitted
  cases wr with
  | false =>
    refine (encode_readInstr (Reg.ofOffset off)).trans ?_
    rw [Reg.readTransaction, hoff]
    rfl
  | true =>
    refine (encode_writeInstr (Reg.ofOffset off) wdata).trans ?_
    rw [Reg.writeTransaction, hoff]
    rfl

/-- Settles O2. -/
theorem headerPacksDirSizeOffset : Obligations.HeaderPacksDirSizeOffset := by
  intro t
  refine ⟨?_, t.ofHeader_header⟩
  rw [t.header_toNat]
  omega

theorem decode_writeHeader (r : Reg) (w : Word) :
    decode (.bus (.ofHeader (r.writeTransaction 0#32).header w)) = .instr (r.writeInstr w) := by
  have ht : Transaction.ofHeader (r.writeTransaction 0#32).header w = r.writeTransaction w :=
    Transaction.ofHeader_header (r.writeTransaction w)
  rw [ht, decode_writeTransaction]

/-- A read's header decodes to the read, whatever stands on the write data's port (R81). -/
theorem decode_readHeader (r : Reg) (w : Word) :
    decode (.bus (.ofHeader r.readTransaction.header w)) = .instr r.readInstr := by
  have ht : Transaction.ofHeader r.readTransaction.header w = { r.readTransaction with wdata := w } :=
    Transaction.ofHeader_header { r.readTransaction with wdata := w }
  rw [ht, decode_bus_eq_instr_iff]
  exact ⟨admit_offset r, congrArg Reg.readInstr (Reg.ofOffset_offset r)⟩

/-- Settles O3. -/
theorem admittedHeadersDecode : Obligations.AdmittedHeadersDecode := fun w =>
  ⟨decode_readHeader .keyLo w, decode_readHeader .keyHi w, decode_readHeader .dinLo w, decode_readHeader .dinHi w,
    decode_readHeader .doutLo w, decode_readHeader .doutHi w, decode_readHeader .ctrl w, decode_readHeader .status w,
    decode_writeHeader .keyLo w, decode_writeHeader .keyHi w, decode_writeHeader .dinLo w, decode_writeHeader .dinHi w,
    decode_writeHeader .doutLo w, decode_writeHeader .doutHi w, decode_writeHeader .ctrl w,
    decode_writeHeader .status w⟩

/-! ## Command words -/

/-- Settles O5. -/
theorem commandWordsDecode : Obligations.CommandWordsDecode := by
  refine ⟨decode_commandWord .nop, decode_commandWord .perm, decode_commandWord .enc, fun w h0 h1 h2 => ?_⟩
  rcases Machine.commandOf_cases w with ⟨hnone, -⟩ | ⟨c, -, rfl⟩
  · rw [decode, decodeCommand, hnone]
  · cases c with
    | nop => exact absurd rfl h0
    | perm => exact absurd rfl h1
    | enc => exact absurd rfl h2

namespace Machine

/-- Settles O7: both requests reach the block as the same transaction. -/
theorem commandActsAsCtrlWrite : Obligations.CommandActsAsCtrlWrite := fun w s =>
  (hostStep_eq (.command w) s).trans (hostStep_eq (.bus (Reg.ctrl.writeTransaction w)) s).symm

/-- Settles O13, by the commands a word can be. -/
theorem ctrlWriteCompletesWhenIdle : Obligations.CtrlWriteCompletesWhenIdle := by
  intro w s hb
  have hexec := exec_writeInstr .ctrl w s
  rw [registerWrite, writeWhenIdle_of_idle hb] at hexec
  refine hexec.trans (congrArg Host.Outcome.next ?_)
  rcases commandOf_cases w with ⟨hnone, hne⟩ | ⟨c, hc, rfl⟩
  · have h0 : w ≠ 0x00000000#32 := hne .nop
    have h1 : w ≠ 0x00000001#32 := hne .perm
    have h2 : w ≠ 0x00000002#32 := hne .enc
    rw [hnone, if_neg h0, if_neg h1, if_neg h2]
    rfl
  · rw [hc]
    cases c with
    | nop => rfl
    | perm =>
      have hwhite : s.din ^^^ effectiveKey .perm s.key = s.din := BitVec.xor_zero
      simp only [commandEffect, start, hwhite]
      rfl
    | enc => rfl

end Machine

end Sys2Proof
end

section
/-! # The host's protocol: load the operands, start, wait, read the result -/

namespace Sys2Proof.Machine

/-! ## The transactions of a host program -/

theorem lineTransaction_wr (r : Reg) (w : Word) : lineTransaction (.wr r w) = some (r.writeTransaction w) := by
  rw [lineTransaction, busAccess_base_add (n := 4) r.offset.isLt rfl, BitVec.ofNat_toNat, BitVec.setWidth_eq]
  rfl

theorem lineTransaction_rd (r : Reg) : lineTransaction (.rd r) = some r.readTransaction := by
  rw [lineTransaction, busAccess_base_add (n := 4) r.offset.isLt rfl, BitVec.ofNat_toNat, BitVec.setWidth_eq]
  rfl

/-- The event of a line `wr REG, imm32` (R88). -/
def writeEvent (r : Reg) (w : Word) : Event := .host (.bus (r.writeTransaction w))

/-- The event of a line `rd REG` (R88). -/
def readEvent (r : Reg) : Event := .host (.bus r.readTransaction)

@[simp] theorem writtenRegister_writeEvent (r : Reg) (w : Word) : writtenRegister (writeEvent r w) = some (r, w) := by
  simp [writtenRegister, writeEvent, Request.transaction, Reg.writeTransaction, Transaction.admitted]

theorem eventResult_writeEvent (r : Reg) (w : Word) (s : State) :
    eventResult (writeEvent r w) s = registerWrite r w s :=
  eventResult_of_written (writtenRegister_writeEvent r w) s

theorem eventResult_readEvent (r : Reg) (s : State) : eventResult (readEvent r) s = answer (windowRead r s) s := by
  have h : eventResult (readEvent r) s = answer (windowRead (Reg.ofOffset r.offset) s) s :=
    transactionResult_read (t := r.readTransaction) (admit_offset r) rfl s
  rwa [Reg.ofOffset_offset] at h

theorem pseudoEvents_clr : pseudoEvents .clr = [writeEvent .status 0x0000000E#32] := by
  simp [pseudoEvents, expand, lineTransaction_wr, writeEvent]

theorem pseudoEvents_rdDout : pseudoEvents .rdDout = [readEvent .doutLo, readEvent .doutHi] := by
  simp [pseudoEvents, expand, lineTransaction_rd, readEvent]

/-- PERM and ENC, as host programs, are the writes of their command words to `CTRL` (R89). -/
theorem exists_pseudoEvents_start {cmd : Pseudo} (h : cmd = .perm ∨ cmd = .enc) :
    ∃ m : Mode, pseudoEvents cmd = [writeEvent .ctrl m.command.word] ∧ (cmd = .enc ↔ m = .enc) := by
  rcases h with rfl | rfl
  · refine ⟨.perm, ?_, by decide⟩
    simp [pseudoEvents, expand, lineTransaction_wr, writeEvent, Mode.command, Command.word]
  · refine ⟨.enc, ?_, by decide⟩
    simp [pseudoEvents, expand, lineTransaction_wr, writeEvent, Mode.command, Command.word]

/-! ## The end of `wait` -/

/-- R25, R89: the mask `0xE` of the four status bits leaves `DONE`, `ERR_CMD` and `ERR_BUSY`. -/
theorem waitEnds_statusWord (s : State) : waitEnds (statusWord s) = (s.done || s.errCmd || s.errBusy) := by
  have hbits : ∀ busy done errCmd errBusy : Bool,
      waitEnds
          ((BitVec.ofBool errBusy ++ BitVec.ofBool errCmd ++ BitVec.ofBool done ++ BitVec.ofBool busy).setWidth 32) =
        (done || errCmd || errBusy) := by decide
  exact hbits s.busy s.done s.errCmd s.errBusy

/-- Settles O52. -/
theorem waitEndsOnDoneOrError : Obligations.WaitEndsOnDoneOrError := by
  intro s
  have hstep := step_withSchedule_cons (writeEvent .status 0x0000000E#32) [] s
  rw [eventResult_writeEvent, ← pseudoEvents_clr] at hstep
  refine ⟨waitEnds_statusWord s, _, runSteps_succ_of_next 0 hstep, ?_, rfl⟩
  rw [waitEnds_statusWord]
  simp [registerWrite]

/-! ## The operand writes, in any order -/

/-- The four operand registers. -/
def operandRegs : List Reg := [.keyLo, .keyHi, .dinLo, .dinHi]

/-- The half of the operands `k` and `p` that belongs in a register (20_memory.md R53). -/
def operandHalf (k p : Block) : Reg → Word
  | .keyLo => lowHalf k
  | .keyHi => highHalf k
  | .dinLo => lowHalf p
  | .dinHi => highHalf p
  | .doutLo | .doutHi | .ctrl | .status => 0#32

/-- `s` with one operand register loaded from the operands `k` and `p`. -/
def loadHalf (k p : Block) (r : Reg) (s : State) : State :=
  match r with
  | .keyLo => { s with key := setLowHalf s.key (lowHalf k) }
  | .keyHi => { s with key := setHighHalf s.key (highHalf k) }
  | .dinLo => { s with din := setLowHalf s.din (lowHalf p) }
  | .dinHi => { s with din := setHighHalf s.din (highHalf p) }
  | .doutLo | .doutHi | .ctrl | .status => s

theorem pseudoEvents_load (k p : Block) :
    pseudoEvents (.ldKey k) ++ pseudoEvents (.ldDin p) =
      operandRegs.map fun r => writeEvent r (operandHalf k p r) := by
  simp [pseudoEvents, expand, lineTransaction_wr, writeEvent, operandRegs, operandHalf]

theorem eventResult_load {r : Reg} (hr : r ∈ operandRegs) (k p : Block) (s : State) :
    eventResult (writeEvent r (operandHalf k p r)) s = writeWhenIdle (loadHalf k p r) s := by
  rw [eventResult_writeEvent]
  cases r with
  | keyLo | keyHi | dinLo | dinHi => rfl
  | doutLo | doutHi | ctrl | status => simp [operandRegs] at hr

@[simp] theorem loadHalf_busy (k p : Block) (r : Reg) (s : State) : (loadHalf k p r s).busy = s.busy := by
  cases r <;> rfl

@[simp] theorem loadHalf_answer (k p : Block) (r : Reg) (v : Word) (s : State) :
    loadHalf k p r (answer v s) = answer v (loadHalf k p r s) := by
  cases r <;> rfl

theorem setHighHalf_setLowHalf (v : Block) (hi lo : Word) : setHighHalf (setLowHalf v lo) hi = joinHalves hi lo := by
  simp [setHighHalf, setLowHalf]

theorem setLowHalf_setHighHalf (v : Block) (hi lo : Word) : setLowHalf (setHighHalf v hi) lo = joinHalves hi lo := by
  simp [setHighHalf, setLowHalf]

/-- The order of two loads is immaterial: they touch different halves, or are the same load. -/
theorem loadHalf_comm (k p : Block) (q r : Reg) (s : State) :
    loadHalf k p q (loadHalf k p r s) = loadHalf k p r (loadHalf k p q s) := by
  cases q <;> cases r <;> simp [loadHalf, setHighHalf_setLowHalf, setLowHalf_setHighHalf]

theorem writeWhenIdle_loadHalf_comm (k p : Block) (q r : Reg) (s : State) :
    writeWhenIdle (loadHalf k p q) (writeWhenIdle (loadHalf k p r) s) =
      writeWhenIdle (loadHalf k p r) (writeWhenIdle (loadHalf k p q) s) := by
  cases hb : s.busy with
  | false => simp [writeWhenIdle, hb, loadHalf_comm k p q r]
  | true => simp [writeWhenIdle, hb]

theorem eventsResult_eq_foldl (es : List Event) (s : State) :
    eventsResult es s = es.foldl (fun u e => eventResult e u) s := by
  induction es generalizing s with
  | nil => rfl
  | cons e es ih => exact ih _

/-- Events that commute may act in any order. -/
theorem eventsResult_eq_of_perm {es fs : List Event} (h : es.Perm fs)
    (hcomm : ∀ e ∈ fs, ∀ f ∈ fs, ∀ u, eventResult e (eventResult f u) = eventResult f (eventResult e u)) (s : State) :
    eventsResult es s = eventsResult fs s := by
  rw [eventsResult_eq_foldl, eventsResult_eq_foldl]
  exact h.foldl_eq' (fun e he f hf u => (hcomm e (h.subset he) f (h.subset hf) u).symm) s

/-- R234: while idle, the four operand writes load both operands, in whatever order they come. -/
theorem eventsResult_load {s : State} (hb : s.busy = false) {k p : Block} {ops : List Event}
    (h : ops.Perm (pseudoEvents (.ldKey k) ++ pseudoEvents (.ldDin p))) :
    eventsResult ops s = answer 0#32 { s with key := k, din := p } := by
  rw [pseudoEvents_load] at h
  rw [eventsResult_eq_of_perm h]
  · simp [operandRegs, operandHalf, eventsResult, eventResult_writeEvent, registerWrite, writeWhenIdle, hb, answer,
      setHighHalf_setLowHalf, joinHalves_split]
  · simp only [List.mem_map]
    rintro _ ⟨q, hq, rfl⟩ _ ⟨r, hr, rfl⟩ u
    simp only [eventResult_load hq, eventResult_load hr, writeWhenIdle_loadHalf_comm k p q r]

/-! ## The whole protocol -/

/-- R109: the Core's step at `I = 31`. -/
theorem eventResult_core_completes {s : State} (hb : s.busy = true) (hi : s.i = 31#5) :
    eventResult .core s = complete (noResponse s) := by
  simp [eventResult, coreStep, hb, hi]

/-- R111, R132: an accepted start and 32 Core steps, the last of them the last event, leave the result. -/
theorem eventsResult_operation {m : Mode} {s : State} {e : Event} {es : List Event} (hb : s.busy = false)
    (hstart : startRequested e = some m) (hreset : .reset ∉ es) (hcount : es.count .core = 31) :
    (eventsResult (e :: es ++ [.core]) s).busy = false ∧ (eventsResult (e :: es ++ [.core]) s).done = true ∧
      (eventsResult (e :: es ++ [.core]) s).dout = operationResult m s.key s.din := by
  have hi0 : (answer 0#32 (start m s)).i.toNat + es.count .core = 31 := by simp [hcount]
  obtain ⟨hop, hi, -, -⟩ := inOperation_eventsResult (inOperation_start m s) hreset (by omega)
  have hlast : (eventsResult es (answer 0#32 (start m s))).i = 31#5 := BitVec.eq_of_toNat_eq (hi.trans hi0)
  rw [List.cons_append, eventsResult, eventResult_start hb hstart, eventsResult_append, eventsResult, eventsResult,
    eventResult_core_completes hop.1 hlast]
  exact ⟨rfl, rfl, complete_dout_of_inOperation (s := noResponse _) hop hlast⟩

/-- The protocol of R234 and R236 up to its completion: operand writes, a start, and further events, the last of them a
Core step. -/
def protocolEvents (ops : List Event) (m : Mode) (es : List Event) : List Event :=
  ops ++ (writeEvent .ctrl m.command.word :: es ++ [.core])

theorem length_protocolEvents {k p : Block} {ops : List Event}
    (hops : ops.Perm (pseudoEvents (.ldKey k) ++ pseudoEvents (.ldDin p))) (m : Mode) (es : List Event) :
    (protocolEvents ops m es).length = es.length + 6 := by
  have hfour : ops.length = 4 := by
    rw [hops.length_eq, pseudoEvents_load, List.length_map]
    rfl
  simp only [protocolEvents, List.length_append, List.length_cons, List.length_nil, hfour]
  omega

theorem eventsResult_protocolEvents {m : Mode} {s : State} {k p : Block} {ops es : List Event} (hb : s.busy = false)
    (hops : ops.Perm (pseudoEvents (.ldKey k) ++ pseudoEvents (.ldDin p))) (hreset : .reset ∉ es)
    (hcount : es.count .core = 31) :
    (eventsResult (protocolEvents ops m es) s).busy = false ∧ (eventsResult (protocolEvents ops m es) s).done = true ∧
      (eventsResult (protocolEvents ops m es) s).dout = operationResult m k p := by
  have hstart : startRequested (writeEvent .ctrl m.command.word) = some m :=
    startRequested_eq_some_iff.2 (writtenRegister_writeEvent _ _)
  rw [protocolEvents, eventsResult_append, eventsResult_load hb hops]
  exact eventsResult_operation (s := answer 0#32 { s with key := k, din := p }) hb hstart hreset hcount

/-- R89: `rd64 DOUT` reads the low half and then the high half. -/
theorem step_rdDout (s : State) :
    ∃ u v, step (withSchedule (pseudoEvents .rdDout) s) = .next u ∧ step u = .next v ∧
      u.resp = some { rdata := lowHalf s.dout, err := false } ∧
      v.resp = some { rdata := highHalf s.dout, err := false } := by
  refine ⟨withSchedule [readEvent .doutHi] (answer (lowHalf s.dout) s), _, ?_, step_withSchedule_cons _ _ _, rfl, ?_⟩
  · rw [pseudoEvents_rdDout, step_withSchedule_cons, eventResult_readEvent]
    rfl
  · rw [eventResult_readEvent]
    rfl

/-- Settles O42: the operand writes load `k` and `p`, the start and 32 Core steps leave the result in `DOUT`, and the
two reads return its halves. -/
theorem hostProtocolComputesResult : Obligations.HostProtocolComputesResult := by
  intro s k p cmd ops es hb hcmd hops hreset hcount
  obtain ⟨m, hpseudo, hm⟩ := exists_pseudoEvents_start hcmd
  obtain ⟨hbusy, hdone, hdout⟩ := eventsResult_protocolEvents (m := m) hb hops hreset hcount
  obtain ⟨u, v, hu, hv, hlo, hhi⟩ := step_rdDout (eventsResult (protocolEvents ops m es) s)
  have hrun := runSteps_withSchedule_append (protocolEvents ops m es) (pseudoEvents .rdDout) s
  refine ⟨withSchedule (pseudoEvents .rdDout) _, u, v, ?_, hbusy, hdone, rfl, hu, hv, _, _, hlo, hhi, ?_⟩
  · have hevents : ops ++ pseudoEvents cmd ++ es ++ [.core] = protocolEvents ops m es := by
      simp [protocolEvents, hpseudo]
    rw [hevents, ← length_protocolEvents hops m es, hrun]
  · have hresult : operationResult m k p = if cmd = .enc then encryptBlock k p else permute p := by
      rw [if_congr hm rfl rfl]
      cases m <;> rfl
    rw [← hresult, ← hdout]
    exact joinHalves_split _

end Sys2Proof.Machine
end

section
/-! # The mixing step, its inverse, and the functions built from them -/

namespace Sys2Proof.Machine

/-! ## The rotation amounts -/

/-- The amount depends on the step index modulo 8 alone (40_permutation.md R101). -/
theorem rotation_add_eight (i : BitVec 5) : rotation (i + 8#5) = rotation i := by
  have hmod : (i + 8#5).toNat % 8 = i.toNat % 8 := by
    rw [BitVec.toNat_add, BitVec.toNat_ofNat]
    omega
  rw [rotation, hmod, ← rotation]

/-- Every entry of the table is a proper rotation (R100). -/
theorem rotation_mem_range (i : BitVec 5) : 1 ≤ rotation i ∧ rotation i ≤ 31 := by
  have htable : ∀ n < 8, 1 ≤ (roundConstants.getD n 0).toNat ∧ (roundConstants.getD n 0).toNat ≤ 31 := by decide
  exact htable _ (Nat.mod_lt _ (by decide))

/-- Settles O53: the first eight amounts are the table, and the index counts modulo 8. -/
theorem rotationScheduleCyclesTheTable : Obligations.RotationScheduleCyclesTheTable :=
  ⟨by decide, fun i => ⟨rotation_add_eight i, rotation_mem_range i⟩⟩

/-! ## The mixing step in arithmetic -/

/-- The bits that a left shift keeps are the low ones, moved up. -/
theorem mul_two_pow_mod_eq_shiftLeft (n : Nat) {r w : Nat} (hr : r ≤ w) :
    n * 2 ^ r % 2 ^ w = (n % 2 ^ (w - r)) <<< r := by
  rw [Nat.shiftLeft_eq, ← Nat.mul_mod_mul_right, ← Nat.pow_add, Nat.sub_add_cancel hr]

/-- 00_scope.md R7: the two parts of a rotated word share no bit, so their sum is their disjunction. -/
theorem toNat_rotl32 (v : Word) {r : Nat} (hr : r ≤ 31) :
    (rotl32 v r).toNat = v.toNat * 2 ^ r % 2 ^ 32 + v.toNat / 2 ^ (32 - r) := by
  have hlow : v.toNat / 2 ^ (32 - r) < 2 ^ r := by
    rw [Nat.div_lt_iff_lt_mul (Nat.two_pow_pos _), ← Nat.pow_add, Nat.add_sub_cancel' (by omega)]
    exact v.isLt
  rw [rotl32, BitVec.toNat_or, BitVec.toNat_shiftLeft, BitVec.toNat_ushiftRight, Nat.shiftLeft_eq,
    Nat.shiftRight_eq_div_pow, mul_two_pow_mod_eq_shiftLeft _ (by omega), Nat.shiftLeft_add_eq_or_of_lt hlow]

/-- Settles O54. -/
theorem mixStepInModularArithmetic : Obligations.MixStepInModularArithmetic := by
  intro h l i
  have hi : (i.setWidth 32).toNat = i.toNat := BitVec.toNat_setWidth_of_le (by decide)
  refine ⟨BitVec.toNat_add h l, ?_⟩
  rw [mixStep, BitVec.toNat_add, BitVec.toNat_xor, BitVec.toNat_add, toNat_rotl32 l (rotation_mem_range i).2, hi]

/-! ## The final combination -/

/-- The high half, shifted up, and the low half have no bit in common. -/
theorem shiftedHigh_and_low (h l : Word) : (h.setWidth 64 <<< 32) &&& l.setWidth 64 = 0#64 := by
  apply BitVec.eq_of_getLsbD_eq
  intro k hk
  by_cases hlow : k < 32
  · simp [hlow]
  · simp [BitVec.getLsbD_of_ge l k (by omega)]

theorem shiftedHigh_or_low (h l : Word) : (h.setWidth 64 <<< 32) ||| l.setWidth 64 = joinHalves h l := by
  apply BitVec.eq_of_getLsbD_eq
  intro k hk
  rw [joinHalves_getLsbD]
  by_cases hlow : k < 32
  · simp [hlow, hk]
  · simp [hlow, hk, BitVec.getLsbD_of_ge l k (by omega)]

theorem xor_eq_or_of_and_eq_zero {w : Nat} {x y : BitVec w} (h : x &&& y = 0#w) : x ^^^ y = x ||| y := by
  apply BitVec.eq_of_getLsbD_eq
  intro k hk
  have hbit : (x.getLsbD k && y.getLsbD k) = false := by
    rw [← BitVec.getLsbD_and, h, BitVec.getLsbD_zero]
  rw [BitVec.getLsbD_xor, BitVec.getLsbD_or]
  rcases Bool.and_eq_false_iff.1 hbit with hx | hy
  · simp [hx]
  · simp [hy]

theorem combine_eq_or (h l : Word) : combine h l = (h.setWidth 64 <<< 32) ||| l.setWidth 64 :=
  xor_eq_or_of_and_eq_zero (shiftedHigh_and_low h l)

theorem combine_eq_joinHalves (h l : Word) : combine h l = joinHalves h l :=
  (combine_eq_or h l).trans (shiftedHigh_or_low h l)

/-- Settles O56: without a carry, the sum is the disjunction too. -/
theorem combineIsConcatenation : Obligations.CombineIsConcatenation := fun h l =>
  ⟨combine_eq_joinHalves h l, rfl, combine_eq_or h l,
    (combine_eq_or h l).trans (BitVec.add_eq_or_of_and_eq_zero _ _ (shiftedHigh_and_low h l)).symm⟩

/-! ## The inverse -/

/-- Rotating left undoes rotating right, which is rotating left by the rest of the word. -/
theorem rotl32_rotr32 (v : Word) {r : Nat} (hr1 : 1 ≤ r) (hr : r ≤ 31) : rotl32 (rotr32 v r) r = v := by
  have h := rotr32_rotl32 v (r := 32 - r) (by omega) (by omega)
  rwa [rotr32, Nat.sub_sub_self (by omega)] at h

/-- R106: each of the four operations is undone, the last one first. -/
theorem unmixStep_mixStep (h l : Word) (i : BitVec 5) : unmixStep (mixStep h l i).1 (mixStep h l i).2 i = (h, l) := by
  obtain ⟨hr1, hr⟩ := rotation_mem_range i
  simp only [mixStep, unmixStep, BitVec.add_sub_cancel, BitVec.xor_assoc, BitVec.xor_self, BitVec.xor_zero,
    rotr32_rotl32 l hr1 hr]

theorem mixStep_unmixStep (h l : Word) (i : BitVec 5) :
    mixStep (unmixStep h l i).1 (unmixStep h l i).2 i = (h, l) := by
  obtain ⟨hr1, hr⟩ := rotation_mem_range i
  simp only [mixStep, unmixStep, BitVec.sub_add_cancel, BitVec.xor_assoc, BitVec.xor_self, BitVec.xor_zero,
    rotl32_rotr32 _ hr1 hr]

/-- The last mixing step is the first to be undone. -/
theorem unmixSteps_mixSteps (n : Nat) (p : Word × Word) : unmixSteps n (mixSteps n p) = p := by
  induction n with
  | zero => rfl
  | succ n ih => rw [mixSteps, unmixSteps, unmixStep_mixStep, ih]

theorem mixSteps_unmixSteps (n : Nat) (p : Word × Word) : mixSteps n (unmixSteps n p) = p := by
  induction n generalizing p with
  | zero => rfl
  | succ n ih => rw [unmixSteps, mixSteps, ih, mixStep_unmixStep]

theorem permute_eq_joinHalves (x : Block) :
    permute x = joinHalves (mixSteps 32 (highHalf x, lowHalf x)).1 (mixSteps 32 (highHalf x, lowHalf x)).2 :=
  combine_eq_joinHalves _ _

theorem invPermute_permute (x : Block) : invPermute (permute x) = x := by
  rw [permute_eq_joinHalves, invPermute, highHalf_join, lowHalf_join, unmixSteps_mixSteps]
  exact joinHalves_split x

theorem permute_invPermute (y : Block) : permute (invPermute y) = y := by
  rw [permute_eq_joinHalves, invPermute, highHalf_join, lowHalf_join, mixSteps_unmixSteps]
  exact joinHalves_split y

/-- Settles O57. -/
theorem permuteIsBijective : Obligations.PermuteIsBijective := ⟨invPermute_permute, permute_invPermute⟩

/-! ## The worked examples -/

/-- Settles O59: with a zero input block the cipher is `Permute` of the key, whitened. -/
theorem workedExamples : Obligations.WorkedExamples := by
  have hkey : permute 0x0123456789ABCDEF#64 = 0x2F77803851E59A86#64 := by decide +kernel
  refine ⟨hkey, by decide +kernel, ?_⟩
  rw [encryptBlock, BitVec.xor_zero, hkey]
  rfl

end Sys2Proof.Machine
end

section
/-! # From a start to the completion -/

namespace Sys2Proof.Machine

/-! ## The start -/

/-- A command presented by itself acts as its word written to `CTRL` (30_encoding.md R83). -/
theorem exec_command (c : Command) (s : State) : exec c.instr s = exec (.wrCtrl c.word) s := by
  cases c <;> rfl

/-- Settles O12, as the writes of the command words 0, 1 and 2 to `CTRL`. -/
theorem commandsCompleteWhenIdle : Obligations.CommandsCompleteWhenIdle := by
  intro s hb
  have hexec (c : Command) := (exec_command c s).trans (ctrlWriteCompletesWhenIdle c.word s hb)
  exact ⟨hexec .nop, hexec .perm, hexec .enc⟩

theorem step_of_events {s : State} {e : Event} {rest : List Event} (h : s.events = e :: rest) :
    step s = .next (withSchedule rest (eventResult e s)) := by
  rw [step_eq_withSchedule, nextEvent, h, List.tail_cons]

theorem operationInvariant_of_inOperation {m : Mode} {k x : Block} {s : State} (hop : InOperation m k x s)
    (hdone : s.done = false) : OperationInvariant m k x s :=
  ⟨fun _ => hop, fun h => absurd (hdone.symm.trans h) Bool.false_ne_true⟩

/-- Settles O35. -/
theorem acceptedStartBeginsOperation : Obligations.AcceptedStartBeginsOperation := by
  intro m s e rest hs hb hstart
  have hop := inOperation_start m s
  refine ⟨withSchedule rest (answer 0#32 (start m s)), ?_, hop, rfl, rfl, rfl, rfl, rfl,
    operationInvariant_of_inOperation hop rfl⟩
  rw [step_of_events hs, eventResult_start hb hstart]

/-! ## The Core's steps -/

/-- Settles O22, by the three things the Core can do. -/
theorem coreEventMixesOrCompletes : Obligations.CoreEventMixesOrCompletes := by
  intro s rest hs
  obtain ⟨u, hstep, heffect⟩ := step_effect hs
  rw [hstep]
  cases heffect with
  | coreRests hb =>
    rw [if_pos hb]
    rfl
  | coreAdvances hb hi =>
    have hlt : s.i.toNat < 31 := by bv_omega
    have hnext : s.i + 1#5 = BitVec.ofNat 5 (s.i.toNat + 1) := by bv_omega
    rw [if_neg (ne_false_of_eq_true hb), if_pos hlt, ← hnext]
    rfl
  | coreCompletes hb hi =>
    have hlast : ¬ s.i.toNat < 31 := by simp [hi]
    rw [if_neg (ne_false_of_eq_true hb), if_neg hlast, ← effectiveKey_eq]
    rfl

/-! ## The completion -/

/-- After a start and 31 Core steps the operation is before its last mixing step. -/
theorem inOperation_beforeLastCoreStep {m : Mode} {s : State} {e : Event} {es : List Event} (hb : s.busy = false)
    (hstart : startRequested e = some m) (hreset : .reset ∉ es) (hcount : es.count .core = 31) :
    InOperation m s.key s.din (eventsResult (e :: es) s) ∧ (eventsResult (e :: es) s).i = 31#5 := by
  have hi0 : (answer 0#32 (start m s)).i.toNat + es.count .core = 31 := by simp [hcount]
  obtain ⟨hop, hi, -, -⟩ := inOperation_eventsResult (inOperation_start m s) hreset (by omega)
  rw [eventsResult, eventResult_start hb hstart]
  exact ⟨hop, BitVec.eq_of_toNat_eq (hi.trans hi0)⟩

/-- Settles O38: 31 Core steps leave the operation before its last one, which completes it. -/
theorem operationCompletesAtThirtySecondCoreStep : Obligations.OperationCompletesAtThirtySecondCoreStep := by
  intro m s e es hb hstart hreset hcount
  obtain ⟨hop, hi⟩ := inOperation_beforeLastCoreStep hb hstart hreset hcount
  have hdout := complete_dout_of_inOperation (s := noResponse _) hop hi
  have ⟨hbusy, _, hkey, hdin, _⟩ := hop
  refine ⟨_, withSchedule [] (complete (noResponse (eventsResult (e :: es) s))),
    runSteps_withSchedule_append (e :: es) [.core] s, hbusy, ?_, ?_, rfl, rfl, rfl, hkey, hdin, rfl⟩
  · rw [step_withSchedule_cons, eventResult_core_completes hbusy hi]
  · cases m <;> exact hdout

/-- A PERM's result does not depend on the key. -/
theorem operationResult_congr {m : Mode} {k k' : Block} (hkey : m = .enc → k = k') (x : Block) :
    operationResult m k x = operationResult m k' x := by
  cases m with
  | perm => rfl
  | enc => rw [hkey rfl]

/-- R111, R132: the run through a whole operation, and the result it leaves. -/
theorem runSteps_operation {m : Mode} {s : State} {e : Event} {es : List Event} (hb : s.busy = false)
    (hstart : startRequested e = some m) (hreset : .reset ∉ es) (hcount : es.count .core = 31) :
    ∃ t, runSteps (es.length + 2) (withSchedule (e :: es ++ [.core]) s) = .next t ∧
      t.dout = operationResult m s.key s.din := by
  obtain ⟨-, -, hdout⟩ := eventsResult_operation hb hstart hreset hcount
  have hrun := runSteps_withSchedule (e :: es ++ [.core]) s
  rw [List.length_append, List.length_cons, List.length_singleton] at hrun
  exact ⟨_, hrun, hdout⟩

/-- Settles O40: both results are the one value that the operands give. -/
theorem operationResultIsDeterministic : Obligations.OperationResultIsDeterministic := by
  intro m s s' e e' es es' hb hb' hstart hstart' hreset hreset' hcount hcount' hdin hkey
  obtain ⟨t, hrun, hdout⟩ := runSteps_operation hb hstart hreset hcount
  obtain ⟨t', hrun', hdout'⟩ := runSteps_operation hb' hstart' hreset' hcount'
  refine ⟨t, t', hrun, hrun', ?_⟩
  rw [hdout, hdout', hdin, operationResult_congr hkey]

end Sys2Proof.Machine
end

section
/-! # What a single step can show of the key -/

namespace Sys2Proof.Machine

/-- `s` with another key and other working halves. -/
def withSecrets (k : Block) (a b : Word) (s : State) : State := { s with key := k, h := a, l := b }

namespace SameButSecrets

variable {s s' : State}

theorem eq_withSecrets (h : SameButSecrets s s') : s' = withSecrets s'.key s'.h s'.l s := h.symm

theorem resp_eq (h : SameButSecrets s s') : s.resp = s'.resp := (congrArg State.resp h.eq_withSecrets).symm

theorem dout_eq (h : SameButSecrets s s') : s.dout = s'.dout := (congrArg State.dout h.eq_withSecrets).symm

end SameButSecrets

/-- No register that a host can read is a secret (42_host_interface.md R152 to R159). -/
theorem windowRead_withSecrets (q : Reg) (k : Block) (a b : Word) (s : State) :
    windowRead q (withSecrets k a b s) = windowRead q s := by
  cases q <;> rfl

theorem commandEffect_withSecrets (c : Option Command) (k : Block) (a b : Word) (s : State) :
    SameButSecrets (commandEffect c s) (commandEffect c (withSecrets k a b s)) := by
  rcases c with _ | _ | _ | _ <;> rfl

/-- Whether a write is dropped, and its response, do not depend on the secrets. -/
theorem writeWhenIdle_withSecrets {effect : State → State} {k : Block} {a b : Word} {s : State}
    (heffect : SameButSecrets (effect s) (effect (withSecrets k a b s))) :
    SameButSecrets (writeWhenIdle effect s) (writeWhenIdle effect (withSecrets k a b s)) := by
  cases hb : s.busy with
  | true =>
    rw [writeWhenIdle_of_busy hb, writeWhenIdle_of_busy (s := withSecrets k a b s) hb]
    rfl
  | false =>
    rw [writeWhenIdle_of_idle hb, writeWhenIdle_of_idle (s := withSecrets k a b s) hb, heffect.eq_withSecrets]
    rfl

theorem registerWrite_withSecrets (q : Reg) (w : Word) (k : Block) (a b : Word) (s : State) :
    SameButSecrets (registerWrite q w s) (registerWrite q w (withSecrets k a b s)) := by
  cases q with
  | keyLo => exact writeWhenIdle_withSecrets (effect := fun u => { u with key := setLowHalf u.key w }) rfl
  | keyHi => exact writeWhenIdle_withSecrets (effect := fun u => { u with key := setHighHalf u.key w }) rfl
  | dinLo => exact writeWhenIdle_withSecrets (effect := fun u => { u with din := setLowHalf u.din w }) rfl
  | dinHi => exact writeWhenIdle_withSecrets (effect := fun u => { u with din := setHighHalf u.din w }) rfl
  | ctrl => exact writeWhenIdle_withSecrets (commandEffect_withSecrets (commandOf w) k a b s)
  | doutLo | doutHi | status => rfl

theorem transactionResult_withSecrets (t : Transaction) (k : Block) (a b : Word) (s : State) :
    SameButSecrets (transactionResult t s) (transactionResult t (withSecrets k a b s)) := by
  cases ha : t.admitted with
  | false =>
    rw [transactionResult_notAdmitted ha, transactionResult_notAdmitted ha]
    rfl
  | true =>
    cases hw : t.wr with
    | false =>
      rw [transactionResult_read ha hw, transactionResult_read ha hw, windowRead_withSecrets]
      rfl
    | true =>
      rw [transactionResult_write ha hw, transactionResult_write ha hw]
      exact registerWrite_withSecrets _ _ k a b s

theorem eventResult_core_advances {s : State} (hb : s.busy = true) (hi : s.i ≠ 31#5) :
    eventResult .core s = advance (noResponse s) := by
  simp [eventResult, coreStep, hb, hi]

/-- The Core's steps before the last write nothing but the working halves and the step index (40_permutation.md R108). -/
theorem eventResult_core_withSecrets {s : State} (h : completes .core s = false) (k : Block) (a b : Word) :
    SameButSecrets (eventResult .core s) (eventResult .core (withSecrets k a b s)) := by
  cases hb : s.busy with
  | false =>
    rw [eventResult_core_of_idle hb, eventResult_core_of_idle (s := withSecrets k a b s) hb]
    rfl
  | true =>
    have hi : s.i ≠ 31#5 := by simpa [hb] using h
    rw [eventResult_core_advances hb hi, eventResult_core_advances (s := withSecrets k a b s) hb hi]
    rfl

theorem eventResult_withSecrets {e : Event} {s : State} (h : completes e s = false) (k : Block) (a b : Word) :
    SameButSecrets (eventResult e s) (eventResult e (withSecrets k a b s)) := by
  cases e with
  | host r => exact transactionResult_withSecrets r.transaction k a b s
  | core => exact eventResult_core_withSecrets h k a b
  | reset => rfl

/-- A completion alone moves secrets out of their registers, and into `DOUT` alone (40_permutation.md R109). -/
theorem eventResult_withSecrets_dout (e : Event) (k : Block) (a b : Word) (s : State) :
    SameButSecrets { eventResult e s with dout := (eventResult e (withSecrets k a b s)).dout }
      (eventResult e (withSecrets k a b s)) := by
  cases hc : completes e s with
  | false =>
    have hsame := eventResult_withSecrets hc k a b
    rw [← hsame.dout_eq]
    exact hsame
  | true =>
    obtain ⟨⟨rfl, hb⟩, hi⟩ : (e = .core ∧ s.busy = true) ∧ s.i = 31#5 := by simpa [completes] using hc
    rw [eventResult_core_completes hb hi, eventResult_core_completes (s := withSecrets k a b s) hb hi]
    rfl

/-- Settles O44, by the event that the step takes. -/
theorem keyReachesHostOnlyThroughDout : Obligations.KeyReachesHostOnlyThroughDout := by
  intro s s' hsame
  rw [hsame.eq_withSecrets]
  have hconfined := eventResult_withSecrets_dout (nextEvent s) s'.key s'.h s'.l (takeEvent s)
  refine ⟨_, _, step_eq s, step_eq _, hconfined.resp_eq, hconfined, fun hc => ?_⟩
  exact (eventResult_withSecrets (s := takeEvent s) hc s'.key s'.h s'.l).dout_eq

end Sys2Proof.Machine
end

section
/-! # The laws of the block cipher -/

namespace Sys2Proof.Machine

theorem encryptBlock_zero_key (p : Block) : encryptBlock 0#64 p = permute p := by
  rw [encryptBlock, BitVec.zero_xor, BitVec.xor_zero]

theorem encryptBlock_self (k : Block) : encryptBlock k k = permute 0#64 ^^^ k := by
  rw [encryptBlock, BitVec.xor_self]

/-- Undone from the outside in: the whitening, `Permute`, the whitening. -/
theorem invPermute_encryptBlock (k p : Block) : invPermute (encryptBlock k p ^^^ k) ^^^ k = p := by
  rw [encryptBlock, xor_cancel_right, invPermute_permute, xor_xor_cancel_comm]

theorem encryptBlock_invPermute (k c : Block) : encryptBlock k (invPermute (c ^^^ k) ^^^ k) = c := by
  rw [encryptBlock, xor_xor_cancel_comm_assoc, permute_invPermute, xor_cancel_right]

/-- A flip of the same bits of key and plaintext cancels at the input of `Permute`, and stays in the last whitening. -/
theorem encryptBlock_xor_both (k p d : Block) :
    encryptBlock (k ^^^ d) (p ^^^ d) = permute (k ^^^ p) ^^^ k ^^^ d := by
  have hinput : (k ^^^ d) ^^^ (p ^^^ d) = k ^^^ p := by
    rw [BitVec.xor_comm p d, ← BitVec.xor_assoc, xor_cancel_right]
  rw [encryptBlock, hinput, ← BitVec.xor_assoc]

/-- Settles O58. -/
theorem encryptBlockLaws : Obligations.EncryptBlockLaws := by
  obtain ⟨-, hzero, -⟩ := workedExamples
  refine ⟨encryptBlock_zero_key, fun k => ⟨encryptBlock_self k, ?_⟩, invPermute_encryptBlock, encryptBlock_invPermute,
    encryptBlock_xor_both⟩
  rw [encryptBlock_self, hzero]

end Sys2Proof.Machine
end

section
/-! # The host interface: what each transaction does, from its header (42_host_interface.md)

Each header is that of the read or the write of a register, so the statements about single transactions are
`decode_readHeader` and `decode_writeHeader` beside the meaning of that register's instruction. -/

namespace Sys2Proof.Machine

/-! ## Reads, and the writes that act busy or not -/

/-- Settles O8. -/
theorem readsCompleteAndChangeNothing : Obligations.ReadsCompleteAndChangeNothing := fun w s =>
  ⟨decode_readHeader .keyLo w, decode_readHeader .keyHi w, decode_readHeader .dinLo w, decode_readHeader .dinHi w,
    decode_readHeader .doutLo w, decode_readHeader .doutHi w, decode_readHeader .ctrl w, decode_readHeader .status w,
    exec_readInstr .keyLo s, exec_readInstr .keyHi s, exec_readInstr .dinLo s, exec_readInstr .dinHi s,
    exec_readInstr .doutLo s, exec_readInstr .doutHi s, exec_readInstr .ctrl s, exec_readInstr .status s⟩

/-- Settles O10. -/
theorem doutWritesAreIgnored : Obligations.DoutWritesAreIgnored := fun w s =>
  ⟨decode_writeHeader .doutLo w, decode_writeHeader .doutHi w, exec_writeInstr .doutLo w s,
    exec_writeInstr .doutHi w s⟩

/-- R167: write-one-to-clear, as a choice for each of the bits 3:1. -/
theorem clearStatus_eq_ite (w : Word) (s : State) :
    clearStatus w s =
      { s with
        done := if w.getLsbD 1 then false else s.done
        errCmd := if w.getLsbD 2 then false else s.errCmd
        errBusy := if w.getLsbD 3 then false else s.errBusy } := by
  have hclear (b c : Bool) : (b && !c) = if c then false else b := by cases c <;> simp
  simp only [clearStatus, hclear]

/-- Settles O11. -/
theorem statusWriteClearsSelectedBits : Obligations.StatusWriteClearsSelectedBits := by
  intro w s
  refine ⟨decode_writeHeader .status w, (exec_writeInstr .status w s).trans ?_⟩
  rw [registerWrite, clearStatus_eq_ite, answer]

/-! ## The writes that are dropped while BUSY -/

/-- R151: a guarded write while BUSY, whatever its data. -/
theorem exec_writeInstr_of_busy {q : Reg} (hq : q.guarded = true) {s : State} (hb : s.busy = true) (w : Word) :
    exec (q.writeInstr w) s = .next (busyDrop s) := by
  rw [exec_writeInstr, registerWrite_of_busy hq hb]

/-- R151, R83: a command while BUSY, as its word written to `CTRL`. -/
theorem exec_command_of_busy (c : Command) {s : State} (hb : s.busy = true) : exec c.instr s = .next (busyDrop s) :=
  (exec_command c s).trans (exec_writeInstr_of_busy (q := .ctrl) rfl hb c.word)

/-- Settles O14. -/
theorem guardedWritesAreDroppedWhileBusy : Obligations.GuardedWritesAreDroppedWhileBusy := by
  intro w s hb
  have hwrite {q : Reg} (hq : q.guarded = true) := exec_writeInstr_of_busy hq hb w
  have hcommand (c : Command) := exec_command_of_busy c hb
  simp only [List.forall_mem_cons]
  exact ⟨hwrite (q := .keyLo) rfl, hwrite (q := .keyHi) rfl, hwrite (q := .dinLo) rfl, hwrite (q := .dinHi) rfl,
    hwrite (q := .ctrl) rfl, hcommand .nop, hcommand .perm, hcommand .enc, List.forall_mem_nil _⟩

/-- Settles O9: the idle writes by `writeWhenIdle_of_idle`, the dropped ones among those of O14. -/
theorem operandWritesReplaceTheirHalf : Obligations.OperandWritesReplaceTheirHalf := by
  intro w s
  refine ⟨decode_writeHeader .keyLo w, decode_writeHeader .keyHi w, decode_writeHeader .dinLo w,
    decode_writeHeader .dinHi w, fun hb => ?_, fun hb i hi => ?_⟩
  · have hwrite (q : Reg) := exec_writeInstr q w s
    refine ⟨(hwrite .keyLo).trans ?_, (hwrite .keyHi).trans ?_, (hwrite .dinLo).trans ?_,
      (hwrite .dinHi).trans ?_⟩ <;>
    · rw [registerWrite, writeWhenIdle_of_idle hb]
      rfl
  · have hguarded := List.mem_append_left [.wrCtrl w, .nop, .perm, .enc] hi
    exact guardedWritesAreDroppedWhileBusy w s hb i hguarded

/-! ## The error events of a step, in their order -/

theorem eventResult_of_writtenRegister {e : Event} {q : Reg} {w : Word} (hw : writtenRegister e = some (q, w))
    (s : State) : eventResult e s = registerWrite q w s := by
  cases e with
  | host r => exact eventResult_of_written hw s
  | core | reset => cases hw

/-- R203 item 2: the drop does not look at the data. -/
theorem eventResult_of_guardedWrite {e : Event} (he : guardedWrite e = true) {s : State} (hb : s.busy = true) :
    eventResult e s = busyDrop s := by
  rw [guardedWrite_eq, Option.any_eq_true] at he
  obtain ⟨⟨q, w⟩, hw, hq⟩ := he
  rw [eventResult_of_writtenRegister hw, registerWrite_of_busy hq hb]

/-- R203 item 3: the word is decoded only where it is not dropped. -/
theorem eventResult_of_illegalCommandWritten {e : Event} (he : illegalCommandWritten e = true) {s : State}
    (hb : s.busy = false) : eventResult e s = answer 0#32 (raiseCommandError s) := by
  rw [illegalCommandWritten_eq, Option.any_eq_true] at he
  obtain ⟨w, hw, hc⟩ := he
  rw [eventResult_of_writtenRegister (dataWritten_eq_some_iff.1 hw), registerWrite, writeWhenIdle_of_idle hb,
    Option.isNone_iff_eq_none.1 hc, commandEffect]

/-- Settles O20. -/
theorem errorEventsInOrder : Obligations.ErrorEventsInOrder := by
  intro s e rest hs
  refine ⟨fun hb he => ?_, fun hb he => ?_⟩
  · rw [step_of_events hs, eventResult_of_guardedWrite he hb]
    rfl
  · rw [step_of_events hs, eventResult_of_illegalCommandWritten he hb]
    rfl

end Sys2Proof.Machine
end

section
/-! # Errors (60_exceptions.md): no step is a fault or a refusal

A bus error, an illegal command and a busy drop are next states (R201), and so are a Core step and a reset. The split
by agent and by error event is in `eventStep_eq` and `hostStep_eq`. -/

namespace Sys2Proof.Machine

/-- Settles O21: the answer is the result of the next event of the schedule. -/
theorem everyStepAnswersNext : Obligations.EveryStepAnswersNext := by
  intro s
  exact ⟨eventResult (nextEvent s) (takeEvent s), step_eq s⟩

end Sys2Proof.Machine
end

section
/-! # Reset, and the reference timing (70_reset_and_hazards.md)

The reference timing is an induction on the rising edges: `AtMixingStep` says where in its operation the block is, and
each edge without reset is one Core step further, whatever transaction it presents. -/

namespace Sys2Proof.Machine

/-! ## Reset -/

/-- Settles O23: the reset event's result is `resetBlock`, whose registers do not depend on the state. -/
theorem resetEventClearsEverything : Obligations.ResetEventClearsEverything := by
  intro s rest hs
  have hstep : step s = .next (withSchedule rest (resetBlock s)) := step_of_events hs
  exact ⟨_, hstep, rfl, rfl, rfl, rfl, rfl, rfl, rfl, rfl, rfl, rfl, rfl, rfl⟩

theorem edgeResult_of_reset {c : Cycle} (hr : c.rstN = false) (s : State) : edgeResult c s = resetBlock s := by
  rw [edgeResult, Cycle.events, hr]
  rfl

/-- Settles O49. -/
theorem resetEdgeOverridesTransaction : Obligations.ResetEdgeOverridesTransaction := by
  intro s c hr
  refine ⟨?_, fun hsel => ?_⟩
  · rw [clockEdge_eq, edgeResult_of_reset hr, resetBlock]
  · simp [clockResponse, hsel, hr]

/-! ## The edges of an operation -/

theorem clockResult_append (cs ds : List Cycle) (s : State) :
    clockResult (cs ++ ds) s = clockResult ds (clockResult cs s) := by
  induction cs generalizing s with
  | nil => rfl
  | cons c cs ih => exact ih _

theorem reset_notMem_hostEvents (c : Cycle) : .reset ∉ c.hostEvents := by
  cases hsel : c.sel <;> simp [Cycle.hostEvents, hsel]

@[simp] theorem count_core_hostEvents (c : Cycle) : c.hostEvents.count .core = 0 := by
  cases hsel : c.sel <;> simp [Cycle.hostEvents, hsel]

/-- R203, R242: an edge that comes while an operation is in progress is its transaction, and then one Core step. -/
theorem events_of_busy {c : Cycle} (hr : c.rstN = true) {s : State} (hb : s.busy = true) :
    c.events s = c.hostEvents ++ [.core] := by
  rw [Cycle.events, hr, hb]
  rfl

/-- R242: the edge at which the start is sampled has no Core step, because the block was idle when the edge came. -/
theorem edgeResult_start {m : Mode} {s : State} {c : Cycle} (hb : s.busy = false) (hr : c.rstN = true)
    (hsel : c.sel = true) (hstart : startRequested (.host (.bus c.txn)) = some m) :
    edgeResult c s = answer 0#32 (start m s) := by
  have hevents : c.events s = [.host (.bus c.txn)] := by simp [Cycle.events, Cycle.hostEvents, hr, hsel, hb]
  rw [edgeResult, hevents, eventsResult, eventResult_start hb hstart]
  rfl

/-- The block is before mixing step `n` of the operation `m` that started with key `k` and input `x`, and still shows
the previous result `y`. -/
structure AtMixingStep (m : Mode) (k x y : Block) (n : Nat) (s : State) : Prop where
  inOperation : InOperation m k x s
  toNat_i : s.i.toNat = n
  done : s.done = false
  dout : s.dout = y

theorem atMixingStep_start (m : Mode) (s : State) :
    AtMixingStep m s.key s.din s.dout 0 (answer 0#32 (start m s)) :=
  ⟨inOperation_start m s, rfl, rfl, rfl⟩

namespace AtMixingStep

variable {m : Mode} {k x y : Block} {n : Nat} {s : State}

theorem busy (h : AtMixingStep m k x y n s) : s.busy = true := h.inOperation.1

theorem eventsResult (h : AtMixingStep m k x y n s) {es : List Event} (hreset : .reset ∉ es)
    (hcount : n + es.count .core < 32) : AtMixingStep m k x y (n + es.count .core) (eventsResult es s) := by
  obtain ⟨hop, rfl, hdone, hdout⟩ := h
  obtain ⟨hop', hi', hdone', hdout'⟩ := inOperation_eventsResult hop hreset hcount
  exact ⟨hop', hi', hdone' hdone, hdout'.trans hdout⟩

theorem edgeResult (h : AtMixingStep m k x y n s) {c : Cycle} (hr : c.rstN = true) (hn : n + 1 < 32) :
    AtMixingStep m k x y (n + 1) (edgeResult c s) := by
  have hreset : Event.reset ∉ c.hostEvents ++ [Event.core] := by simp [reset_notMem_hostEvents]
  have hcount : (c.hostEvents ++ [Event.core]).count .core = 1 := by simp
  have hedge := h.eventsResult hreset (by rwa [hcount])
  rwa [hcount, ← events_of_busy hr h.busy] at hedge

theorem clockResult (h : AtMixingStep m k x y n s) {cs : List Cycle} (hr : ∀ c ∈ cs, c.rstN = true)
    (hn : n + cs.length < 32) : AtMixingStep m k x y (n + cs.length) (clockResult cs s) := by
  induction cs generalizing n s with
  | nil => exact h
  | cons c cs ih =>
    obtain ⟨hc, hcs⟩ := List.forall_mem_cons.1 hr
    rw [List.length_cons, Nat.add_comm cs.length, ← Nat.add_assoc] at hn ⊢
    exact ih (h.edgeResult hc (by omega)) hcs hn

/-- R109, R242: the edge after mixing step 30 completes the operation; its transaction, which acts first, still finds
the operation in progress. -/
theorem edgeResult_last (h : AtMixingStep m k x y 31 s) {c : Cycle} (hr : c.rstN = true) :
    (Machine.edgeResult c s).busy = false ∧ (Machine.edgeResult c s).done = true ∧
      (Machine.edgeResult c s).dout = operationResult m k x := by
  obtain ⟨hop, hi, -, -⟩ := h.eventsResult (reset_notMem_hostEvents c) (by simp)
  rw [count_core_hostEvents] at hi
  have hlast := BitVec.eq_of_toNat_eq (y := 31#5) hi
  rw [Machine.edgeResult, events_of_busy hr h.busy, eventsResult_append, Machine.eventsResult, Machine.eventsResult,
    eventResult_core_completes hop.1 hlast]
  exact ⟨rfl, rfl, complete_dout_of_inOperation (s := noResponse _) hop hlast⟩

/-- R242: the 32nd edge after the start is the one that completes the operation. -/
theorem clockResult_completed (h : AtMixingStep m k x y 0 s) {cs : List Cycle} (hr : ∀ c ∈ cs, c.rstN = true)
    (hlen : cs.length = 32) :
    (Machine.clockResult cs s).busy = false ∧ (Machine.clockResult cs s).done = true ∧
      (Machine.clockResult cs s).dout = operationResult m k x := by
  obtain rfl | ⟨ds, d, rfl⟩ := cs.eq_nil_or_concat'
  · cases hlen
  · obtain ⟨hds, hd⟩ := List.forall_mem_append.1 hr
    have hlen' : 0 + ds.length = 31 := by simpa using hlen
    have hlast := h.clockResult hds (by omega)
    rw [hlen'] at hlast
    rw [clockResult_append]
    exact hlast.edgeResult_last (hd d (List.mem_singleton_self d))

end AtMixingStep

/-! ## Reading `STATUS` at an edge -/

theorem statusWord_getLsbD_zero (s : State) : (statusWord s).getLsbD 0 = s.busy := by
  simp only [statusWord, BitVec.getLsbD_setWidth, BitVec.getLsbD_append]
  simp

theorem statusWord_getLsbD_one (s : State) : (statusWord s).getLsbD 1 = s.done := by
  simp only [statusWord, BitVec.getLsbD_setWidth, BitVec.getLsbD_append]
  simp

/-- R80, R159: a `STATUS` read answers from the state before its edge. -/
theorem clockResponse_readStatus (w : Word) (s : State) :
    clockResponse { rstN := true, sel := true, txn := .ofHeader 0x5C#8 w } s =
      some { rdata := statusWord s, err := false } := by
  have hdecode : decode (.bus (.ofHeader 0x5C#8 w)) = .instr .rdStatus := decode_readHeader .status w
  simp only [clockResponse, hostStep, hdecode, if_true]
  rfl

/-- Settles O47: fewer than 32 edges leave the block at a mixing step, and the 32nd completes the operation. -/
theorem referenceTimingIsThirtyTwoEdges : Obligations.ReferenceTimingIsThirtyTwoEdges := by
  intro m s c cs hb hr hsel hstart hrs hlen
  have hstatus (w : Word) := clockResponse_readStatus w (clockResult (c :: cs) s)
  have h0 : AtMixingStep m s.key s.din s.dout 0 (edgeResult c s) := by
    rw [edgeResult_start hb hr hsel hstart]
    exact atMixingStep_start m s
  refine ⟨clockResult (c :: cs) s, clockRun_eq _ s, ?_⟩
  rw [clockResult] at hstatus ⊢
  rcases hlen.lt_or_eq with hlt | heq
  · have hrunning := h0.clockResult hrs ((Nat.zero_add _).trans_lt hlt)
    refine ⟨fun _ => ⟨hrunning.inOperation, hrunning.toNat_i.trans (Nat.zero_add _), hrunning.dout⟩,
      fun heq => absurd heq hlt.ne, fun w => ⟨_, hstatus w, ?_, ?_⟩⟩
    · rw [statusWord_getLsbD_zero, hrunning.busy, decide_eq_true hlt]
    · rw [statusWord_getLsbD_one, hrunning.done, decide_eq_false hlt.ne]
  · obtain ⟨hbusy, hdone, hdout⟩ := h0.clockResult_completed hrs heq
    refine ⟨fun hlt => absurd heq hlt.ne, fun _ => ⟨hbusy, hdone, hdout⟩, fun w => ⟨_, hstatus w, ?_, ?_⟩⟩
    · rw [statusWord_getLsbD_zero, hbusy, decide_eq_false heq.not_lt]
    · rw [statusWord_getLsbD_one, hdone, decide_eq_true heq]

end Sys2Proof.Machine
end
